-- ==== Sys2Proof/Word.lean ====
section
/-!
DEFINITION. The words of the links: a byte and the widths the manual gives its counts, capture
times and message fields.  Every other quantity of the manual (mm, mm/s, kg, ms) is an integer and
is an `Int` or a `Nat` of the model.
-/

namespace Sys2Proof

/-- One character of a party link, or one byte of a frame (R176). -/
abbrev Byte := BitVec 8

/-- A signed encoder count, "held as a 64-bit number" (R20). -/
abbrev Count := BitVec 64

/-- A reading of the free-running 32-bit capture timer, in microseconds (R20). -/
abbrev CaptureTime := BitVec 32

end Sys2Proof
end

