-- ==== Sys2Proof/Syntax.lean ====
section
/-!
DEFINITION. The commands of the block: one constructor of `Instr` per row of spec/opcode_table.json.
A command is an event at one of the part's edges (a frame, a timer expiry, an encoder edge, a change
at an input, a store cycle's end, the reset line).  Its first operand `dt` is the time in
microseconds that has passed since the command before it (notes/assumptions/1.md).
-/

namespace Sys2Proof

/-- The five parties, each on its own link (00_scope, Parties and interfaces). -/
inductive Party where
  | console | drive | car1 | car2 | loopStation
  deriving DecidableEq, Repr

/-- The two cars. -/
inductive Car where
  | one | two
  deriving DecidableEq, Repr

/-- The two feedback channels: MAIN on the drive sheave, ALT on the deflection sheave. -/
inductive Channel where
  | main | alt
  deriving DecidableEq, Repr

/-- The sense of a quadrature edge (R20). -/
inductive Sense where
  | up | down
  deriving DecidableEq, Repr

/-- The TYPE and LEN characters of a frame (R176). -/
structure FrameHead where
  type : Byte
  len : Byte
  deriving DecidableEq, Repr

/-- The commands.  A frame is given by its payload (and by its TYPE where the row does not fix it),
which stand for its characters after the SYNC; the SYNC is FRAME_START_SYNC
(notes/assumptions/19.md).  The sending party is the link it came on (R179). -/
inductive Instr where
  /-- RESET (R175): power-on, supply return or release of the external reset line. -/
  | reset
  /-- ENCODER_EDGE (R20): one transition of one quadrature track. -/
  | encoderEdge (dt : Nat) (ch : Channel) (sense : Sense)
  /-- INPUT_LEVEL_CHANGE (R175): the voltages in mV seen at one sampling instant, by input. -/
  | inputLevelChange (dt : Nat) (seen : List (Fin 32 × Nat))
  /-- SAMPLE_TIMER_EXPIRY (R25). -/
  | sampleTimerExpiry (dt : Nat)
  /-- STANDSTILL_TIMER_EXPIRY (R81). -/
  | standstillTimerExpiry (dt : Nat)
  /-- FILTER_TIMER_EXPIRY (R48): the slots whose timers are taken as expiring at this event. -/
  | filterTimerExpiry (dt : Nat) (slots : List (Fin 14))
  /-- PREPARE_TIMER_EXPIRY (R85). -/
  | prepareTimerExpiry (dt : Nat)
  /-- DWELL_TIMER_EXPIRY (R95). -/
  | dwellTimerExpiry (dt : Nat)
  /-- CREEP_HOLD_LAPSE (R101). -/
  | creepHoldLapse (dt : Nat)
  /-- BRAKE_RELEASE_DEADLINE_EXPIRY (R145), of every brake whose release deadline is due. -/
  | brakeReleaseDeadlineExpiry (dt : Nat)
  /-- BRAKE_APPLY_DEADLINE_EXPIRY (R146), of every brake whose apply deadline is due. -/
  | brakeApplyDeadlineExpiry (dt : Nat)
  /-- EFFECTIVENESS_CHECK_EXPIRY (R149), of every check that is due. -/
  | effectivenessCheckExpiry (dt : Nat)
  /-- QUICK_STOP_TIMER_EXPIRY (R153). -/
  | quickStopTimerExpiry (dt : Nat)
  /-- LINK_TIMEOUT (R182). -/
  | linkTimeout (dt : Nat) (p : Party)
  /-- FRAME_GAP_TIMEOUT (R177). -/
  | frameGapTimeout (dt : Nat) (p : Party)
  /-- CRC_FAILED_FRAME (R177): a complete frame and the CRC it carried. -/
  | crcFailedFrame (dt : Nat) (p : Party) (type : Byte) (payload : List Byte) (crc : BitVec 16)
  /-- BAD_TYPE_FRAME (R179). -/
  | badTypeFrame (dt : Nat) (p : Party) (type : Byte) (payload : List Byte)
  /-- TRANSMIT_COMPLETE (R181). -/
  | transmitComplete (dt : Nat) (p : Party)
  /-- RUN (R57). -/
  | run (dt : Nat) (payload : List Byte)
  /-- CALL_LOOP (R56). -/
  | callLoop (dt : Nat) (p : Party) (payload : List Byte)
  /-- CANCEL with scope ENTRY (R68). -/
  | cancelEntry (dt : Nat) (payload : List Byte)
  /-- CANCEL with scope ALL (R68). -/
  | cancelAll (dt : Nat) (payload : List Byte)
  /-- CANCEL with scope RUN (R98). -/
  | cancelRun (dt : Nat) (payload : List Byte)
  /-- SUSPEND (R96). -/
  | suspend (dt : Nat) (payload : List Byte)
  /-- RESUME (R97). -/
  | resume (dt : Nat) (payload : List Byte)
  /-- CREEP (R99). -/
  | creep (dt : Nat) (payload : List Byte)
  /-- SHUTTLE_START (R74). -/
  | shuttleStart (dt : Nat) (payload : List Byte)
  /-- SHUTTLE_END (R75). -/
  | shuttleEnd (dt : Nat) (payload : List Byte)
  /-- ACK_FAULT naming a kind (R168). -/
  | ackFault (dt : Nat) (payload : List Byte)
  /-- ACK_FAULT ALL (R169). -/
  | ackFaultAll (dt : Nat) (payload : List Byte)
  /-- OPEN_EDIT (R194). -/
  | openEdit (dt : Nat) (payload : List Byte)
  /-- WRITE_ITEM (R195). -/
  | writeItem (dt : Nat) (payload : List Byte)
  /-- READ_ITEM (R196). -/
  | readItem (dt : Nat) (payload : List Byte)
  /-- COMMIT_EDIT (R197). -/
  | commitEdit (dt : Nat) (payload : List Byte)
  /-- ABANDON_EDIT (R199). -/
  | abandonEdit (dt : Nat) (payload : List Byte)
  /-- WRITE_CONSTANT (R189). -/
  | writeConstant (dt : Nat) (payload : List Byte)
  /-- READ_CONSTANT (R192). -/
  | readConstant (dt : Nat) (payload : List Byte)
  /-- LOCK_CONSTANTS (R191). -/
  | lockConstants (dt : Nat) (payload : List Byte)
  /-- CONSTANT_WRITE_COMPLETE (R190). -/
  | constantWriteComplete (dt : Nat)
  /-- LOCK_CYCLE_COMPLETE (R191). -/
  | lockCycleComplete (dt : Nat)
  /-- COMMIT_CYCLE_COMPLETE (R198). -/
  | commitCycleComplete (dt : Nat)
  /-- CAR_STATE (R184). -/
  | carState (dt : Nat) (car : Car) (payload : List Byte)
  /-- LOOP_STATE (R185). -/
  | loopState (dt : Nat) (payload : List Byte)
  /-- DRIVE_STATE (R185). -/
  | driveState (dt : Nat) (payload : List Byte)
  /-- STATUS_TIMER_EXPIRY (R186). -/
  | statusTimerExpiry (dt : Nat)
  /-- CAR_COMMAND_PERIOD_EXPIRY (R187). -/
  | carCommandPeriodExpiry (dt : Nat) (car : Car)
  /-- LOOP_COMMAND_PERIOD_EXPIRY (R187). -/
  | loopCommandPeriodExpiry (dt : Nat)
  /-- HELD_IN_RESET (R175): loss of supply or assertion of the external reset line. -/
  | heldInReset (dt : Nat)
  /-- FRAME_START_SYNC (R177): a 0x5A character. -/
  | frameStartSync (dt : Nat) (p : Party)
  /-- MISSING_STOP_BIT (R177). -/
  | missingStopBit (dt : Nat) (p : Party)
  /-- LEN_ABOVE_192 (R177): the TYPE and LEN characters of a frame. -/
  | lenAbove192 (dt : Nat) (p : Party) (head : FrameHead)
  /-- NOT_PERMITTED_FRAME (R179). -/
  | notPermittedFrame (dt : Nat) (p : Party) (type : Byte) (payload : List Byte)
  deriving DecidableEq, Repr

end Sys2Proof
end

