-- ==== Sys2Proof/Decode.lean ====
section
/-!
DEFINITION. Decoding.  The rows of spec/opcode_table.json give their commands no bits: a command is an
event at one of the part's edges and not a word.
-/

namespace Sys2Proof

/-- The command that a word spells by the table's bits: none, because no row of the table gives bits
(notes/assumptions/3.md). -/
def decodeTableWord (_nbits _w : Nat) : Option Instr := none

end Sys2Proof
end

