-- ==== Sys2Proof/Config.lean ====
section
/-!
DEFINITION. The free values: the values that the spec leaves open and on which the part nevertheless
goes on.  Each is an opaque constant without a body, so that nothing can be proved of it and every
claim holds whatever it is.
-/

namespace Sys2Proof.Config

/-- The channel speed (before its saturation) that a window with edges gives when the capture time
of its last edge equals that of the reference edge.  R22 states that this interval is never 0, so
R21 gives no quotient for it.  The arguments are the count difference and the pulse scale.
DESIGN CHOICE, free value: notes/assumptions/7.md. -/
opaque speedOverNoTime : Int → Int → Int

/-- What a signed four-byte message field carries for a value that four bytes cannot hold.  R176 says
only that signed numbers are two's complement.  The argument is the value.
DESIGN CHOICE, free value: notes/assumptions/8.md. -/
opaque wideField : Int → BitVec 32

end Sys2Proof.Config
end

