-- ==== Sys2Proof/Machine/Types.lean ====
section
/-!
DEFINITION. The data of the part's blocks: the manual's enumerations, and one structure per record
it names.  Positions, distances and speeds are integers (mm, mm/s); times are microseconds of the
part's own clock unless a name says otherwise.
-/

namespace Sys2Proof.Machine

/-! ## Values kept per car, per channel and per party -/

/-- A value for each car. -/
structure PerCar (α : Type) where
  one : α
  two : α
  deriving DecidableEq, Repr

/-- A value for each feedback channel. -/
structure PerChannel (α : Type) where
  main : α
  alt : α
  deriving DecidableEq, Repr

/-- A value for each party's link. -/
structure PerParty (α : Type) where
  console : α
  drive : α
  car1 : α
  car2 : α
  loopStation : α
  deriving DecidableEq, Repr

/-! ## The Track Table (R5 to R12) -/

/-- The three stops. -/
inductive Stop where
  | lower | loop | upper
  deriving DecidableEq, Repr

/-- The two rope directions. -/
inductive Dir where
  | up | down
  deriving DecidableEq, Repr

/-- The kind of a segment (R5). -/
inductive SegKind where
  | plain | tunnel | bridge | loop | platform
  deriving DecidableEq, Repr

/-- The branch of a checkpoint (R10). -/
inductive Branch where
  | any | east | west
  deriving DecidableEq, Repr

/-- A segment record (R5). -/
structure Segment where
  start : Int
  limit : Int
  grad : Fin 4
  kind : SegKind
  deriving DecidableEq, Repr

/-- A checkpoint record (R10). -/
structure Checkpoint where
  pos : Int
  branch : Branch
  input : Fin 32
  tol : Int
  deriving DecidableEq, Repr

/-- A stop record (R12). -/
structure StopRecord where
  mark1 : Int
  mark2 : Int
  window : Int
  deriving DecidableEq, Repr

/-! ## Filter configuration (R44, R45) -/

/-- The source of a filter slot (R45). -/
inductive SlotSource where
  | input (n : Fin 32)
  | mainStall | altStall | disagree | alwaysFalse | alwaysTrue
  deriving DecidableEq, Repr

/-- The configuration record of a filter slot (R44); the counts are in ms. -/
structure FilterConfig where
  source : SlotSource
  enabled : Bool
  setMs : Nat
  clearMs : Nat
  report : Bool
  deriving DecidableEq, Repr

/-! ## Faults (R158, R162) -/

/-- The stop classes, in rising order (R158). -/
inductive StopClass where
  | notice | serviceStop | quickStop | emergency
  deriving DecidableEq, Repr

/-- The 27 fault kinds, in the order of their codes (R158). -/
inductive FaultKind where
  | overspeedCurve | overspeedLimit | overtravel | wrongBranch | ropeDisplaced | stationStop
  | feedbackLost | feedbackDisagree | feedbackFailover | checkpointMismatch | checkpointMissed
  | checkpointLost | brakeReleaseTimeout | brakeApplyTimeout | brakeIneffective | driveFault
  | linkLostDrive | linkLostCar | linkLostLoop | linkLostConsole | doorNotLocked | carEmergency
  | loopGateOpen | windSevere | stopOutsideWindow | prepareTimeout | tableInvalid
  deriving DecidableEq, Repr

/-- A set of cars, as a report names them (R158). -/
structure CarSet where
  one : Bool
  two : Bool
  deriving DecidableEq, Repr

/-- A set of brakes, as a report names them (R158). -/
structure BrakeSet where
  service : Bool
  emergency : Bool
  deriving DecidableEq, Repr

/-- An entry of the Active Fault Set (R162). -/
structure FaultEntry where
  kind : FaultKind
  cls : StopClass
  firstTime : BitVec 32
  count : Nat
  isPresent : Bool
  reported : Bool
  cars : CarSet
  brakes : BrakeSet
  deriving DecidableEq, Repr

/-- A report of a fault kind, with the cars or brakes it names (R158, R163). -/
structure Report where
  kind : FaultKind
  cars : CarSet := ⟨false, false⟩
  brakes : BrakeSet := ⟨false, false⟩
  deriving DecidableEq, Repr

/-- The conditions of the present kinds, one for each car where the kind names cars (R159 to R161). -/
inductive Cond where
  | overspeedCurve | overspeedLimit | overtravel | ropeDisplaced | stationStop | feedbackLost
  | feedbackDisagree | driveFault | linkLostDrive | linkLostCar (k : Car) | linkLostLoop
  | linkLostConsole | doorNotLocked (k : Car) | carEmergency (k : Car) | loopGateOpen | windSevere
  | tableInvalid
  deriving DecidableEq, Repr

/-! ## The Operating Set and the Line Constants (R188, R193) -/

/-- The settings, in the order of their indices 1 to 24 (R193). -/
structure Settings where
  ac0 : Int
  ac1 : Int
  ac2 : Int
  ac3 : Int
  aAcc : Int
  vCreep : Int
  dF : Int
  m : Int
  overtravel : Int
  cMax : Int
  disagree : Int
  stallMs : Int
  failoverPct : Int
  windCap : Int
  consoleMs : Int
  car1Ms : Int
  car2Ms : Int
  loopMs : Int
  driveMs : Int
  releaseMs : Int
  applyMs : Int
  aMin : Int
  prepareS : Int
  dwellS : Int
  deriving DecidableEq, Repr

/-- The Operating Set: Track Table, settings, filter configuration and class table. -/
structure OperatingSet where
  segCount : Nat
  segs : List Segment
  cpCount : Nat
  cps : List Checkpoint
  lower : StopRecord
  loop : StopRecord
  upper : StopRecord
  settings : Settings
  filters : List FilterConfig
  classes : List StopClass
  deriving DecidableEq, Repr

/-- The eight Line Constants, each a value or the mark "unset" (R188). -/
structure Constants where
  lr : Option Int
  l0 : Option Int
  sc : Option Int
  g : Option Int
  me : Option Int
  mMax : Option Int
  pMain : Option Int
  pAlt : Option Int
  deriving DecidableEq, Repr

/-- The name of a Line Constant, in the order of their codes 1 to 8 (R188). -/
inductive ConstName where
  | lr | l0 | sc | g | me | mMax | pMain | pAlt
  deriving DecidableEq, Repr

/-- The commissioning state (R188). -/
inductive Commissioning where
  | unset | set | locked
  deriving DecidableEq, Repr

/-- The store cycle in flight, if any (R189, R191, R197). -/
inductive StoreCycle where
  | idle
  | constant (c : ConstName) (value : Int)
  | lock
  | commit (set : OperatingSet)
  deriving DecidableEq, Repr

/-- The Configuration Store.  `stored` and `mark` are the stored copy and its validity mark; with
`consts` and `lock` they are what retained memory holds.  An edit is open while `staging` is
present. -/
structure Store where
  consts : Constants
  lock : Bool
  stored : OperatingSet
  mark : Bool
  active : OperatingSet
  staging : Option OperatingSet
  cycle : StoreCycle
  deriving DecidableEq, Repr

/-! ## Field Interface, Filter Bank and Position Reckoner -/

/-- One channel: the Field Interface's record (R20: `count`, `edgeTime`, `edges`, `lastCount`) and
what the Reckoner keeps of the channel (R21 to R23, R26: reference edge, channel speed, base, and the
moment from which the stall clock runs). -/
structure ChannelRecord where
  count : Count
  edgeTime : Option CaptureTime
  edges : Nat
  lastCount : Count
  refEdge : Option CaptureTime
  speed : Int
  baseCount : Count
  basePos : Int
  stallFrom : Nat
  deriving DecidableEq, Repr

/-- A filter slot: its output, the source level it last took, its timer (idle, or its due time) and
its change flag (R46, R51). -/
structure Slot where
  output : Bool
  level : Bool
  due : Option Nat
  flag : Bool
  deriving DecidableEq, Repr

/-- The zone record of a car for a checkpoint (R38). -/
inductive Zone where
  | outside | withinUnmatched | withinMatched
  deriving DecidableEq, Repr

/-- The published sample (R25).  `referenced` is the referencing state it carries: p1 and p2 are
valid only when it is true. -/
structure Sample where
  s : Int
  v : Int
  p : PerCar Int
  e : PerCar Int
  c : PerCar Int
  source : Channel
  referenced : Bool
  time : CaptureTime
  deriving DecidableEq, Repr

/-- The Position Reckoner's own state (R43).  `hasPrev` says whether pass tests have previous
positions (R36, R4); `zones` holds each car's zone records by checkpoint slot. -/
structure Reckoner where
  referenced : Bool
  source : Channel
  c : PerCar Int
  miss : PerCar Nat
  zones : PerCar (List Zone)
  hasPrev : Bool
  mainStall : Bool
  altStall : Bool
  disagree : Bool
  overtravel : Bool
  sample : Sample
  deriving DecidableEq, Repr

/-! ## Request Arbiter -/

/-- The source of a queue entry (R56). -/
inductive Caller where
  | console | car1 | car2 | loopStation
  deriving DecidableEq, Repr

/-- The kind of a queue entry (R58). -/
inductive CallKind where
  | stop | through
  deriving DecidableEq, Repr

/-- The side of a queue entry (R58). -/
inductive Side where
  | east | west | both
  deriving DecidableEq, Repr

/-- The identity of a queue entry: source, kind and stop (R58). -/
structure Ident where
  caller : Caller
  kind : CallKind
  stop : Stop
  deriving DecidableEq, Repr

/-- An entry of the Request Queue; `left` is its left-at-stop mark (R58). -/
structure Entry where
  id : Ident
  side : Side
  left : Bool
  deriving DecidableEq, Repr

/-- The loop policy of the Shuttle Record (R73). -/
inductive LoopPolicy where
  | always | onCall
  deriving DecidableEq, Repr

/-- The Shuttle Record (R73); the dwell is in s. -/
structure Shuttle where
  active : Bool
  policy : LoopPolicy
  dwell : Int
  lastDir : Dir
  deriving DecidableEq, Repr

/-! ## Run Controller -/

/-- The eleven run states, in the order of their codes (R78). -/
inductive RunState where
  | parked | preparing | releasing | running | finalApproach | settling | dwell | suspending
  | suspended | faultStopping | faultHeld
  deriving DecidableEq, Repr

/-- The mode of a run (R79). -/
inductive Mode where
  | stop | through | creep | shuttle
  deriving DecidableEq, Repr

/-- The flavour of SETTLING (R91). -/
inductive Flavour where
  | stop | creepLapse | suspend
  deriving DecidableEq, Repr

/-- The Run Record (R79).  `frozen` is absent until the loads are frozen; a load of `none` is an
unknown load.  `served` names the entries of the served-entry list by their identities (R69). -/
structure RunRecord where
  number : BitVec 16
  mode : Mode
  dir : Dir
  origin : Option Stop
  target : Option Stop
  sStar : Option Int
  frozen : Option (PerCar (Option Int))
  served : List Ident
  merged : Bool
  deriving DecidableEq, Repr

/-- The Run Controller's state.  A timer is idle (`none`) or running toward its due time.
`standstillHeld` marks a standstill timer that has expired at the instant of a sample not yet
published (R81).  `changed` and `arbitrate` are the model's own: within one event they say that
the run state has changed and that the event is an arbitration event; between events both are
false. -/
structure RunControl where
  state : RunState
  stopClass : Option StopClass
  flavour : Option Flavour
  record : Option RunRecord
  counter : BitVec 16
  prepareDue : Option Nat
  dwellDue : Option Nat
  creepDue : Option Nat
  standstillDue : Option Nat
  standstillHeld : Bool
  standstill : Bool
  dwellStop : Option Stop
  dwellErr : PerCar Int
  approaching : Bool
  changed : Bool
  arbitrate : Bool
  deriving DecidableEq, Repr

/-! ## Stop Target Unit -/

/-- The held target (R126). -/
structure HeldTarget where
  stop : Stop
  exact : PerCar Int
  shared : Bool
  sStar : Int
  favoured : Option Car
  perr : PerCar Int
  deriving DecidableEq, Repr

/-! ## Profile Unit -/

/-- The run context (R107). -/
structure RunContext where
  dir : Dir
  creep : Bool
  aRun : Int
  hasTarget : Bool
  deriving DecidableEq, Repr

/-- The Profile Unit's state (R106). -/
structure Profile where
  vLocal : Int
  vTgt : Option Int
  vP : Int
  vRef : Int
  wind : Bool
  source : Channel
  ctx : Option RunContext
  stopClass : Option StopClass
  vSup : Int
  curve : Bool
  limit : Bool
  deriving DecidableEq, Repr

/-! ## Brake and Drive Command Unit -/

/-- The state of a brake (R141). -/
inductive BrakeState where
  | applied | releasing | released | applying
  deriving DecidableEq, Repr

/-- A brake record: its state, its deadline timer and its apply-ended mark (R141). -/
structure Brake where
  state : BrakeState
  due : Option Nat
  ended : Bool
  deriving DecidableEq, Repr

/-- A running effectiveness check (R148).  `elapsed` marks a check whose timer has expired at the
instant of a sample not yet published (R149). -/
structure Check where
  brakes : BrakeSet
  v0 : Int
  due : Nat
  elapsed : Bool
  deriving DecidableEq, Repr

/-- The Brake and Drive Command Unit's state (R157).  The release outputs follow from the brake
states (R141).  `refEnable` and `refSpeed` are the DRIVE_REFERENCE formed last (R156). -/
structure BrakeUnit where
  enable : Bool
  service : Brake
  emergency : Brake
  checks : List Check
  quickDue : Option Nat
  rail : Bool
  refEnable : Bool
  refSpeed : Int
  deriving DecidableEq, Repr

/-! ## Link Unit -/

/-- A frame: its TYPE and payload.  SYNC, LEN and CRC follow from them (R176, R178). -/
structure Frame where
  type : Byte
  payload : List Byte
  deriving DecidableEq, Repr

/-- The receive state of a link (R177): in IN_FRAME, the characters of the frame taken since its SYNC.
The position within the frame is their number, and one more for the SYNC. -/
inductive Receiver where
  | hunt
  | inFrame (taken : List Byte)
  deriving DecidableEq, Repr

/-- One link: its state and supervision timer (R182), its receiver (R177), and its transmitter's
frame in sending and frames waiting (R181). -/
structure Link where
  up : Bool
  due : Option Nat
  rx : Receiver
  sending : Option Frame
  waiting : List Frame
  deriving DecidableEq, Repr

/-- The doors of a car record (R184). -/
inductive Doors where
  | closedLocked | closed | opened | unknown
  deriving DecidableEq, Repr

/-- A gate of the loop record (R185). -/
inductive Gate where
  | closedLocked | opened | unknown
  deriving DecidableEq, Repr

/-- A car's party record (R184); a load of `none` is unknown. -/
structure CarRecord where
  doors : Doors
  emergency : Bool
  load : Option Int
  deriving DecidableEq, Repr

/-- The loop station's party record (R185). -/
structure LoopRecord where
  east : Gate
  west : Gate
  deriving DecidableEq, Repr

/-- The drive's party record (R185). -/
structure DriveRecord where
  ready : Bool
  faultCode : Byte
  deriving DecidableEq, Repr

/-- The party records. -/
structure Records where
  car : PerCar CarRecord
  loop : LoopRecord
  drive : DriveRecord
  deriving DecidableEq, Repr

/-- The due times of the timers that always run: the sample timer (R21), the STATUS timer (R186) and
the command period timers (R187). -/
structure Periods where
  sample : Nat
  status : Nat
  car : PerCar Nat
  loop : Nat
  deriving DecidableEq, Repr

/-- The outcome a REPLY carries (10.7, Outcome codes). -/
inductive ReplyCode where
  | accepted | merged | queued | clamped | held | busy | queueFull | wrongState | tooLate
  | badValue | badType | notPermitted | locked | notCommissioned | notReferenced | faultActive
  | editOpen | noEdit | invalidTable | notReported | conditionPresent | moving
  deriving DecidableEq, Repr

/-- What the owner of a request answers: outcome, DETAIL and the value part of an accepted read
(R180). -/
structure Reply where
  code : ReplyCode
  detail : Nat := 0
  value : List Byte := []
  deriving DecidableEq, Repr

end Sys2Proof.Machine
end

