-- ==== Sys2Proof/Machine/Factory.lean ====
section
/-!
DEFINITION. The fixed tables of the part: the fault kinds with their default classes, floors and
types (R158), the ranges of settings and constants (R188, R193), and the factory Operating Set (R13,
R54, R171, R193).
-/

namespace Sys2Proof.Machine

/-- The rank of a stop class: NOTICE < SERVICE_STOP < QUICK_STOP < EMERGENCY (R158). -/
def StopClass.rank : StopClass → Nat
  | .notice => 0
  | .serviceStop => 1
  | .quickStop => 2
  | .emergency => 3

/-- The class of a code (10.7). -/
def StopClass.ofCode : Nat → Option StopClass
  | 0 => some .notice
  | 1 => some .serviceStop
  | 2 => some .quickStop
  | 3 => some .emergency
  | _ => none

/-- The fault kinds in code order (R158). -/
def FaultKind.all : List FaultKind :=
  [.overspeedCurve, .overspeedLimit, .overtravel, .wrongBranch, .ropeDisplaced, .stationStop,
   .feedbackLost, .feedbackDisagree, .feedbackFailover, .checkpointMismatch, .checkpointMissed,
   .checkpointLost, .brakeReleaseTimeout, .brakeApplyTimeout, .brakeIneffective, .driveFault,
   .linkLostDrive, .linkLostCar, .linkLostLoop, .linkLostConsole, .doorNotLocked, .carEmergency,
   .loopGateOpen, .windSevere, .stopOutsideWindow, .prepareTimeout, .tableInvalid]

/-- The code of a fault kind (R158). -/
def FaultKind.code : FaultKind → Nat
  | .overspeedCurve => 1 | .overspeedLimit => 2 | .overtravel => 3 | .wrongBranch => 4
  | .ropeDisplaced => 5 | .stationStop => 6 | .feedbackLost => 7 | .feedbackDisagree => 8
  | .feedbackFailover => 9 | .checkpointMismatch => 10 | .checkpointMissed => 11
  | .checkpointLost => 12 | .brakeReleaseTimeout => 13 | .brakeApplyTimeout => 14
  | .brakeIneffective => 15 | .driveFault => 16 | .linkLostDrive => 17 | .linkLostCar => 18
  | .linkLostLoop => 19 | .linkLostConsole => 20 | .doorNotLocked => 21 | .carEmergency => 22
  | .loopGateOpen => 23 | .windSevere => 24 | .stopOutsideWindow => 25 | .prepareTimeout => 26
  | .tableInvalid => 27

/-- The fault kind of a code from 1 to 27 (R158). -/
def FaultKind.ofCode (n : Nat) : Option FaultKind :=
  if n = 0 then none else FaultKind.all[n - 1]?

/-- The default class of a kind (R158). -/
def FaultKind.defaultClass : FaultKind → StopClass
  | .overspeedCurve => .quickStop
  | .overspeedLimit | .overtravel | .wrongBranch | .ropeDisplaced | .stationStop => .emergency
  | .feedbackLost => .emergency
  | .feedbackDisagree => .quickStop
  | .feedbackFailover => .notice
  | .checkpointMismatch => .serviceStop
  | .checkpointMissed => .notice
  | .checkpointLost => .serviceStop
  | .brakeReleaseTimeout => .serviceStop
  | .brakeApplyTimeout | .brakeIneffective | .driveFault | .linkLostDrive => .emergency
  | .linkLostCar => .serviceStop
  | .linkLostLoop | .linkLostConsole => .notice
  | .doorNotLocked | .carEmergency | .loopGateOpen => .quickStop
  | .windSevere => .serviceStop
  | .stopOutsideWindow | .prepareTimeout => .notice
  | .tableInvalid => .serviceStop

/-- The floor of a kind whose class may be changed, or `none` for a floor marked "fixed" (R158). -/
def FaultKind.floor : FaultKind → Option StopClass
  | .overspeedCurve => some .serviceStop
  | .overspeedLimit | .overtravel | .wrongBranch | .ropeDisplaced | .stationStop => none
  | .feedbackLost => none
  | .feedbackDisagree => some .serviceStop
  | .feedbackFailover => some .notice
  | .checkpointMismatch => some .serviceStop
  | .checkpointMissed => some .notice
  | .checkpointLost => some .serviceStop
  | .brakeReleaseTimeout => some .serviceStop
  | .brakeApplyTimeout | .brakeIneffective => none
  | .driveFault => some .quickStop
  | .linkLostDrive => none
  | .linkLostCar => some .serviceStop
  | .linkLostLoop | .linkLostConsole => some .notice
  | .doorNotLocked | .carEmergency | .loopGateOpen => some .serviceStop
  | .windSevere => some .notice
  | .stopOutsideWindow | .prepareTimeout | .tableInvalid => none

/-- Whether a kind is of type present; the others are momentary (R158). -/
def FaultKind.presentType : FaultKind → Bool
  | .wrongBranch | .feedbackFailover | .checkpointMismatch | .checkpointMissed | .checkpointLost
  | .brakeReleaseTimeout | .brakeApplyTimeout | .brakeIneffective | .stopOutsideWindow
  | .prepareTimeout => false
  | _ => true

/-- The least class an entry of a kind may have: the floor, or the default where it is fixed (R158,
R162). -/
def FaultKind.leastClass (k : FaultKind) : StopClass := (k.floor).getD k.defaultClass

/-- The range of a Line Constant (R188). -/
def ConstName.range : ConstName → Int × Int
  | .lr => (200000, 4000000)
  | .l0 => (0, 200000)
  | .sc => (0, 500)
  | .g => (50, 1000)
  | .me => (2000, 40000)
  | .mMax => (500, 12000)
  | .pMain => (50, 5000)
  | .pAlt => (50, 5000)

/-- The constant of a code from 1 to 8 (R188). -/
def ConstName.ofCode : Nat → Option ConstName
  | 1 => some .lr
  | 2 => some .l0
  | 3 => some .sc
  | 4 => some .g
  | 5 => some .me
  | 6 => some .mMax
  | 7 => some .pMain
  | 8 => some .pAlt
  | _ => none

/-- The range of the setting with a given index (R193). -/
def settingRange : Nat → Option (Int × Int)
  | 1 | 2 | 3 | 4 => some (200, 1500)
  | 5 => some (100, 1200)
  | 6 => some (100, 500)
  | 7 => some (20, 300)
  | 8 => some (100, 5000)
  | 9 => some (200, 5000)
  | 10 => some (50, 3000)
  | 11 => some (100, 5000)
  | 12 => some (100, 2000)
  | 13 => some (20, 80)
  | 14 => some (1000, 12000)
  | 15 | 16 | 17 | 18 => some (100, 5000)
  | 19 => some (20, 500)
  | 20 => some (100, 3000)
  | 21 => some (100, 2000)
  | 22 => some (100, 1000)
  | 23 => some (1, 60)
  | 24 => some (0, 600)
  | _ => none

/-- The settings of the factory Operating Set (R193). -/
def Settings.factory : Settings where
  ac0 := 500
  ac1 := 500
  ac2 := 500
  ac3 := 500
  aAcc := 300
  vCreep := 300
  dF := 100
  m := 1000
  overtravel := 1000
  cMax := 500
  disagree := 1000
  stallMs := 500
  failoverPct := 50
  windCap := 3000
  consoleMs := 1000
  car1Ms := 600
  car2Ms := 600
  loopMs := 600
  driveMs := 50
  releaseMs := 800
  applyMs := 500
  aMin := 300
  prepareS := 15
  dwellS := 20

/-- The factory segment record (R13). -/
def Segment.factory : Segment := ⟨0, 300, 3, .plain⟩

/-- The factory checkpoint record of slot j (R13). -/
def Checkpoint.factory (j : Nat) : Checkpoint := ⟨0, .any, Fin.ofNat 32 j, 50⟩

/-- The factory stop record (R13). -/
def StopRecord.factory : StopRecord := ⟨0, 0, 20⟩

/-- The factory filter configuration of slot i (R54). -/
def FilterConfig.factory : Nat → FilterConfig
  | 0 => ⟨.mainStall, true, 0, 200, false⟩
  | 1 => ⟨.altStall, true, 0, 200, false⟩
  | 2 => ⟨.disagree, true, 0, 200, false⟩
  | _ => ⟨.alwaysFalse, false, 0, 0, false⟩

/-- The factory Operating Set (R13, R54, R171, R193). -/
def OperatingSet.factory : OperatingSet where
  segCount := 1
  segs := List.replicate 48 Segment.factory
  cpCount := 0
  cps := (List.range 24).map Checkpoint.factory
  lower := StopRecord.factory
  loop := StopRecord.factory
  upper := StopRecord.factory
  settings := Settings.factory
  filters := (List.range 14).map FilterConfig.factory
  classes := FaultKind.all.map FaultKind.defaultClass

/-- The constants of a part as delivered: all unset (R188). -/
def Constants.unset : Constants := ⟨none, none, none, none, none, none, none, none⟩

/-- The Configuration Store of a part as delivered (R188, R200).  The stored copy has no validity
mark, so what it holds is never used; the factory set stands there. -/
def Store.delivered : Store where
  consts := Constants.unset
  lock := false
  stored := OperatingSet.factory
  mark := false
  active := OperatingSet.factory
  staging := none
  cycle := .idle

end Sys2Proof.Machine
end

