-- ==== Sys2Proof/Machine/State.lean ====
section
/-!
DEFINITION. The state of the part, its faults and refusals, and the state right after reset.
-/

namespace Sys2Proof.Machine

/-- Why a command stops the machine.  The spec names no behaviour that stops the part, and no
command's meaning ends in a fault, so there is no reason to name. -/
inductive Fault : Type
  deriving DecidableEq, Repr

/-- Why a command has no meaning. -/
inductive Refusal : Type where
  /-- Raised by an arm of `exec` whose command has not been modelled.  Safe: nothing is claimed of
  such a command. -/
  | notModelled (mnemonic : String)
  deriving DecidableEq, Repr

/-- Everything the spec gives the part, by the block that owns it (00_scope, Block diagram), and the
queue of waiting commands. -/
structure State where
  /-- The commands that wait, first in, first out (the model's own). -/
  pending : List Instr
  /-- Whether the part is held in reset (R175). -/
  held : Bool
  /-- Microseconds since reset: the capture timer (R20) and the Fault Handler's clock (R162) are
  readings of it. -/
  time : Nat
  /-- The sampled levels of IN0 to IN31 (R175). -/
  inputs : List Bool
  /-- The encoder channels (R20 to R23). -/
  chan : PerChannel ChannelRecord
  /-- The fourteen filter slots (R46). -/
  slots : List Slot
  /-- The Position Reckoner (R43). -/
  reck : Reckoner
  /-- The Configuration Store (R188, R193). -/
  store : Store
  /-- The Request Queue, oldest first (R58). -/
  queue : List Entry
  /-- The Shuttle Record (R73). -/
  shuttle : Shuttle
  /-- The Run Controller (R78 to R81). -/
  run : RunControl
  /-- The held target of the Stop Target Unit (R126). -/
  target : Option HeldTarget
  /-- The Profile Unit (R106). -/
  prof : Profile
  /-- The Brake and Drive Command Unit (R157). -/
  brk : BrakeUnit
  /-- The Active Fault Set, in kind order (R162). -/
  faults : List FaultEntry
  /-- The conditions of present kinds that hold, as the Fault Handler has last taken them, in the
  order of `Cond.all` (R159 to R161, R165). -/
  conds : List Cond
  /-- The TABLE_INVALID condition (R159, R173). -/
  tableInvalid : Bool
  /-- The five links (R177, R181, R182). -/
  links : PerParty Link
  /-- The party records (R184, R185). -/
  recs : Records
  /-- The timers that always run (R21, R186, R187). -/
  periods : Periods
  deriving DecidableEq, Repr

/-- A channel after reset (R20, R22, R23, R43). -/
def ChannelRecord.afterReset : ChannelRecord where
  count := 0
  edgeTime := none
  edges := 0
  lastCount := 0
  refEdge := none
  speed := 0
  baseCount := 0
  basePos := 0
  stallFrom := 0

/-- A filter slot after reset (R52). -/
def Slot.afterReset : Slot := ⟨false, false, none, false⟩

/-- What stands for the latest published sample until the first one is published: position and speed
0 and not valid (R43; notes/assumptions/6.md). -/
def Sample.afterReset : Sample where
  s := 0
  v := 0
  p := ⟨0, 0⟩
  e := ⟨0, 0⟩
  c := ⟨0, 0⟩
  source := .main
  referenced := false
  time := 0

/-- The Position Reckoner after reset (R43). -/
def Reckoner.afterReset : Reckoner where
  referenced := false
  source := .main
  c := ⟨0, 0⟩
  miss := ⟨0, 0⟩
  zones := ⟨List.replicate 24 .outside, List.replicate 24 .outside⟩
  hasPrev := false
  mainStall := false
  altStall := false
  disagree := false
  overtravel := false
  sample := Sample.afterReset

/-- The Shuttle Record after reset (R73). -/
def Shuttle.afterReset : Shuttle := ⟨false, .onCall, 0, .down⟩

/-- The Run Controller after reset, before any start-up latch (R78 to R81, R136). -/
def RunControl.afterReset : RunControl where
  state := .parked
  stopClass := none
  flavour := none
  record := none
  counter := 0
  prepareDue := none
  dwellDue := none
  creepDue := none
  standstillDue := none
  standstillHeld := false
  standstill := false
  dwellStop := none
  dwellErr := ⟨0, 0⟩
  approaching := false
  changed := false
  arbitrate := false

/-- A brake after reset (R141). -/
def Brake.afterReset : Brake := ⟨.applied, none, false⟩

/-- The Brake and Drive Command Unit after reset (R157). -/
def BrakeUnit.afterReset : BrakeUnit where
  enable := false
  service := Brake.afterReset
  emergency := Brake.afterReset
  checks := []
  quickDue := none
  rail := false
  refEnable := false
  refSpeed := 0

/-- The Profile Unit after reset, with v_local the lowest limit of the table loaded (R106). -/
def Profile.afterReset (lowest : Int) : Profile where
  vLocal := lowest
  vTgt := none
  vP := 0
  vRef := 0
  wind := false
  source := .main
  ctx := none
  stopClass := none
  vSup := 0
  curve := false
  limit := false

/-- A link after reset, its supervision timer running with a timeout in ms (R177, R181, R182). -/
def Link.afterReset (timeoutMs : Int) : Link where
  up := true
  due := some (timeoutMs.toNat * 1000)
  rx := .hunt
  sending := none
  waiting := []

/-- The party records after reset (R184, R185). -/
def Records.afterReset : Records where
  car := ⟨⟨.unknown, false, none⟩, ⟨.unknown, false, none⟩⟩
  loop := ⟨.unknown, .unknown⟩
  drive := ⟨false, 0⟩

/-- The always-running timers after reset (R21, R186, R187). -/
def Periods.afterReset : Periods where
  sample := 10000
  status := 100000
  car := ⟨100000, 100000⟩
  loop := 100000

/-- The first CAR_COMMAND of a part as delivered: FAULT_HELD, next stop none, door release withheld,
speed 0, no valid stop error, rail brake demand clear (R187). -/
def firstCarCommand : Frame := ⟨0x61, [10, 0, 0, 0, 0, 0, 0, 0, 0]⟩

/-- The first LOOP_COMMAND: both gate releases withheld, no cars approaching (R187). -/
def firstLoopCommand : Frame := ⟨0x62, [0, 0, 0]⟩

/-- The machine right after reset: a part as delivered after its first start-up.  The factory set is
active, TABLE_INVALID is in the Active Fault Set, the run state is FAULT_HELD (R173, R200), and the
first CAR_COMMANDs and LOOP_COMMAND, which that change of run state triggers, are being sent (R78,
R187; notes/assumptions/17.md). -/
def State.reset : State where
  pending := []
  held := false
  time := 0
  inputs := List.replicate 32 false
  chan := ⟨ChannelRecord.afterReset, ChannelRecord.afterReset⟩
  slots := List.replicate 14 Slot.afterReset
  reck := Reckoner.afterReset
  store := Store.delivered
  queue := []
  shuttle := Shuttle.afterReset
  run := { RunControl.afterReset with state := .faultHeld }
  target := none
  prof := Profile.afterReset 300
  brk := BrakeUnit.afterReset
  faults := [⟨.tableInvalid, .serviceStop, 0, 1, true, false, ⟨false, false⟩, ⟨false, false⟩⟩]
  conds := [.tableInvalid]
  tableInvalid := true
  links :=
    ⟨Link.afterReset 1000, Link.afterReset 50,
      { Link.afterReset 600 with sending := some firstCarCommand },
      { Link.afterReset 600 with sending := some firstCarCommand },
      { Link.afterReset 600 with sending := some firstLoopCommand }⟩
  recs := Records.afterReset
  periods := Periods.afterReset

end Sys2Proof.Machine
end

