-- ==== Sys2Proof/Machine/Arith.lean ====
section
/-!
DEFINITION. The integer arithmetic of the manual's conventions (00_scope, Integer arithmetic), the
byte order of message fields (R176) and the CRC of a frame (R178).
-/

namespace Sys2Proof.Machine

/-! ## Integers -/

/-- The integer square root by halving the number of bits, with fuel. -/
def isqrtFuel : Nat → Nat → Nat
  | 0, _ => 0
  | fuel + 1, n =>
    if n = 0 then 0
    else
      let r := 2 * isqrtFuel fuel (n / 4)
      if (r + 1) * (r + 1) ≤ n then r + 1 else r

/-- isqrt(x): the largest integer r with r² ≤ x, for x ≥ 0. -/
def isqrt (x : Int) : Int := (isqrtFuel x.toNat x.toNat : Int)

/-- clamp(x, lo, hi). -/
def clamp (x lo hi : Int) : Int := if x < lo then lo else if x > hi then hi else x

/-- The magnitude |x|. -/
def mag (x : Int) : Int := (x.natAbs : Int)

/-- floor(x / d) for a positive d. -/
def floorDiv (x d : Int) : Int := x / d

/-- The quotient rounded toward zero (R37). -/
def truncDiv (x d : Int) : Int := x.tdiv d

/-- The sign of a direction: +1 for UP, −1 for DOWN. -/
def Dir.sign : Dir → Int
  | .up => 1
  | .down => -1

/-- The other direction. -/
def Dir.opposite : Dir → Dir
  | .up => .down
  | .down => .up

/-! ## Bytes of a message (R176: high byte first) -/

/-- An unsigned two-byte field. -/
def putU16 (n : Nat) : List Byte := [BitVec.ofNat 8 (n / 256), BitVec.ofNat 8 n]

/-- A signed two-byte field, in two's complement. -/
def putI16 (x : Int) : List Byte := putU16 (BitVec.ofInt 16 x).toNat

/-- A four-byte field. -/
def putW32 (w : BitVec 32) : List Byte :=
  [w.extractLsb' 24 8, w.extractLsb' 16 8, w.extractLsb' 8 8, w.extractLsb' 0 8]

/-- A signed four-byte field, in two's complement; a value outside its range is a free value
(notes/assumptions/8.md). -/
def putI32 (x : Int) : List Byte :=
  if -(2 : Int) ^ 31 ≤ x ∧ x < (2 : Int) ^ 31 then putW32 (BitVec.ofInt 32 x)
  else putW32 (Config.wideField x)

/-- A true/false field (10.7). -/
def putBool (b : Bool) : List Byte := [if b then 1 else 0]

/-- The unsigned number of a list of bytes, high byte first. -/
def getUnsigned (bs : List Byte) : Nat := bs.foldl (fun n b => n * 256 + b.toNat) 0

/-- The signed number of four bytes, high byte first. -/
def getSigned32 (bs : List Byte) : Int := (BitVec.ofNat 32 (getUnsigned bs)).toInt

/-! ## CRC (R178) -/

/-- One bit of the CRC: the register is shifted toward its high end, and 0x1021 is added modulo 2
when the bit shifted out differs from the message bit. -/
def crcBit (reg : BitVec 16) (bit : Bool) : BitVec 16 :=
  let shifted := reg <<< 1
  if reg.msb != bit then shifted ^^^ 0x1021 else shifted

/-- One byte of the CRC, most significant bit first. -/
def crcByte (reg : BitVec 16) (b : Byte) : BitVec 16 :=
  [7, 6, 5, 4, 3, 2, 1, 0].foldl (fun r i => crcBit r (b.getLsbD i)) reg

/-- The CRC over a list of bytes, the register starting at 0xFFFF. -/
def crc16 (bs : List Byte) : BitVec 16 := bs.foldl crcByte 0xFFFF

/-- LEN of a frame. -/
def Frame.len (f : Frame) : Nat := f.payload.length

/-- The CRC of a frame: over TYPE, LEN and PAYLOAD (R178). -/
def Frame.crc (f : Frame) : BitVec 16 := crc16 (f.type :: BitVec.ofNat 8 f.len :: f.payload)

/-- The characters of a frame after its SYNC, with the CRC it carries (R176). -/
def frameChars (type : Byte) (pl : List Byte) (crc : BitVec 16) : List Byte :=
  type :: BitVec.ofNat 8 pl.length :: (pl ++ [crc.extractLsb' 8 8, crc.extractLsb' 0 8])

/-- The characters of a frame as a transmitter sends them (R176). -/
def Frame.wire (f : Frame) : List Byte := 0x5A :: frameChars f.type f.payload f.crc

end Sys2Proof.Machine
end

