-- ==== Sys2Proof/Machine/Ops.lean ====
section
/-!
DEFINITION. The named accessors of the state: values per car, channel and party, the clocks, the
inputs and slot outputs, the Line Constants in force, and the settings.
-/

namespace Sys2Proof

/-- The party that is car k. -/
def Car.party : Car → Party
  | .one => .car1
  | .two => .car2

/-- The other car. -/
def Car.other : Car → Car
  | .one => .two
  | .two => .one

end Sys2Proof

namespace Sys2Proof.Machine

/-! ## Values per car, channel and party -/

/-- The value of car k. -/
def PerCar.get {α : Type} (x : PerCar α) : Car → α
  | .one => x.one
  | .two => x.two

/-- Sets the value of car k. -/
def PerCar.set {α : Type} (x : PerCar α) (k : Car) (a : α) : PerCar α :=
  match k with
  | .one => { x with one := a }
  | .two => { x with two := a }

/-- The value of a channel. -/
def PerChannel.get {α : Type} (x : PerChannel α) : Channel → α
  | .main => x.main
  | .alt => x.alt

/-- Sets the value of a channel. -/
def PerChannel.set {α : Type} (x : PerChannel α) (ch : Channel) (a : α) : PerChannel α :=
  match ch with
  | .main => { x with main := a }
  | .alt => { x with alt := a }

/-- The value of a party. -/
def PerParty.get {α : Type} (x : PerParty α) : Party → α
  | .console => x.console
  | .drive => x.drive
  | .car1 => x.car1
  | .car2 => x.car2
  | .loopStation => x.loopStation

/-- Sets the value of a party. -/
def PerParty.set {α : Type} (x : PerParty α) (p : Party) (a : α) : PerParty α :=
  match p with
  | .console => { x with console := a }
  | .drive => { x with drive := a }
  | .car1 => { x with car1 := a }
  | .car2 => { x with car2 := a }
  | .loopStation => { x with loopStation := a }

/-- The set holding car k alone. -/
def CarSet.only : Car → CarSet
  | .one => ⟨true, false⟩
  | .two => ⟨false, true⟩

/-- The union of two sets of cars. -/
def CarSet.join (a b : CarSet) : CarSet := ⟨a.one || b.one, a.two || b.two⟩

/-- Whether a set of cars has a member. -/
def CarSet.any (a : CarSet) : Bool := a.one || a.two

/-- The union of two sets of brakes. -/
def BrakeSet.join (a b : BrakeSet) : BrakeSet := ⟨a.service || b.service, a.emergency || b.emergency⟩

/-- Whether a set of brakes has a member. -/
def BrakeSet.any (a : BrakeSet) : Bool := a.service || a.emergency

/-- Both brakes. -/
def BrakeSet.both : BrakeSet := ⟨true, true⟩

/-! ## Clocks and timers -/

/-- Microseconds in a number of milliseconds. -/
def ms (n : Nat) : Nat := n * 1000

/-- The capture timer (R20). -/
def State.captureTimer (s : State) : CaptureTime := BitVec.ofNat 32 s.time

/-- The Fault Handler's clock, in ms from reset (R162). -/
def State.faultClock (s : State) : BitVec 32 := BitVec.ofNat 32 (s.time / 1000)

/-- Whether a timer runs and its due time has come. -/
def isDue (t : Option Nat) (now : Nat) : Bool :=
  match t with
  | some d => decide (d ≤ now)
  | none => false

/-- The time passes by dt µs. -/
def State.advance (dt : Nat) (s : State) : State := { s with time := s.time + dt }

/-- Whether the sample of this instant has not been published yet: the sample timer is due. -/
def State.sampleAwaited (s : State) : Bool := decide (s.periods.sample ≤ s.time)

/-! ## Inputs and slots -/

/-- The sampled level of an input (R175). -/
def State.input (s : State) (n : Fin 32) : Bool := s.inputs.getD n.val false

/-- The output of slot i. -/
def slotOut (slots : List Slot) (i : Nat) : Bool := (slots.getD i Slot.afterReset).output

/-- The output of slot i as it stands (R49). -/
def State.out (s : State) (i : Nat) : Bool := slotOut s.slots i

/-! ## Line Constants in force -/

/-- The record of a constant. -/
def Constants.get (c : Constants) : ConstName → Option Int
  | .lr => c.lr
  | .l0 => c.l0
  | .sc => c.sc
  | .g => c.g
  | .me => c.me
  | .mMax => c.mMax
  | .pMain => c.pMain
  | .pAlt => c.pAlt

/-- Replaces the record of a constant. -/
def Constants.put (c : Constants) (n : ConstName) (v : Int) : Constants :=
  match n with
  | .lr => { c with lr := some v }
  | .l0 => { c with l0 := some v }
  | .sc => { c with sc := some v }
  | .g => { c with g := some v }
  | .me => { c with me := some v }
  | .mMax => { c with mMax := some v }
  | .pMain => { c with pMain := some v }
  | .pAlt => { c with pAlt := some v }

/-- A constant as the computations take it: its value, or the lowest value of its range while it is
unset (R33). -/
def Constants.inForce (c : Constants) (n : ConstName) : Int := (c.get n).getD n.range.1

/-- The constants in force. -/
def State.const (s : State) (n : ConstName) : Int := s.store.consts.inForce n

/-- L_r as it stands. -/
def State.lr (s : State) : Int := s.const .lr

/-- The pulse scale of a channel (R21). -/
def State.scale (s : State) : Channel → Int
  | .main => s.const .pMain
  | .alt => s.const .pAlt

/-- Whether all eight constants are set. -/
def Constants.complete (c : Constants) : Bool :=
  c.lr.isSome && c.l0.isSome && c.sc.isSome && c.g.isSome && c.me.isSome && c.mMax.isSome
    && c.pMain.isSome && c.pAlt.isSome

/-- The commissioning state (R188). -/
def Store.commissioning (st : Store) : Commissioning :=
  if st.lock then .locked else if st.consts.complete then .set else .unset

/-- Whether a store cycle is in flight: the store state is BUSY (R189). -/
def Store.busy (st : Store) : Bool :=
  match st.cycle with
  | .idle => false
  | _ => true

/-- Whether an edit session is open (R194). -/
def Store.editOpen (st : Store) : Bool := st.staging.isSome

/-! ## The active Operating Set -/

/-- The active settings. -/
def State.settings (s : State) : Settings := s.store.active.settings

/-- The stop record of a stop (R12). -/
def OperatingSet.stopRec (o : OperatingSet) : Stop → StopRecord
  | .lower => o.lower
  | .loop => o.loop
  | .upper => o.upper

/-- The window W of a stop, from the active table (R12). -/
def State.window (s : State) (x : Stop) : Int := (s.store.active.stopRec x).window

/-- The service deceleration a_c[g] (R108). -/
def Settings.decel (t : Settings) (g : Fin 4) : Int :=
  match g with
  | 0 => t.ac0
  | 1 => t.ac1
  | 2 => t.ac2
  | 3 => t.ac3

/-- The value of the setting with an index from 1 to 24 (R193). -/
def Settings.get (t : Settings) : Nat → Int
  | 1 => t.ac0
  | 2 => t.ac1
  | 3 => t.ac2
  | 4 => t.ac3
  | 5 => t.aAcc
  | 6 => t.vCreep
  | 7 => t.dF
  | 8 => t.m
  | 9 => t.overtravel
  | 10 => t.cMax
  | 11 => t.disagree
  | 12 => t.stallMs
  | 13 => t.failoverPct
  | 14 => t.windCap
  | 15 => t.consoleMs
  | 16 => t.car1Ms
  | 17 => t.car2Ms
  | 18 => t.loopMs
  | 19 => t.driveMs
  | 20 => t.releaseMs
  | 21 => t.applyMs
  | 22 => t.aMin
  | 23 => t.prepareS
  | 24 => t.dwellS
  | _ => 0

/-- Writes the setting with an index from 1 to 24 (R193). -/
def Settings.put (t : Settings) (i : Nat) (v : Int) : Settings :=
  match i with
  | 1 => { t with ac0 := v }
  | 2 => { t with ac1 := v }
  | 3 => { t with ac2 := v }
  | 4 => { t with ac3 := v }
  | 5 => { t with aAcc := v }
  | 6 => { t with vCreep := v }
  | 7 => { t with dF := v }
  | 8 => { t with m := v }
  | 9 => { t with overtravel := v }
  | 10 => { t with cMax := v }
  | 11 => { t with disagree := v }
  | 12 => { t with stallMs := v }
  | 13 => { t with failoverPct := v }
  | 14 => { t with windCap := v }
  | 15 => { t with consoleMs := v }
  | 16 => { t with car1Ms := v }
  | 17 => { t with car2Ms := v }
  | 18 => { t with loopMs := v }
  | 19 => { t with driveMs := v }
  | 20 => { t with releaseMs := v }
  | 21 => { t with applyMs := v }
  | 22 => { t with aMin := v }
  | 23 => { t with prepareS := v }
  | 24 => { t with dwellS := v }
  | _ => t

/-- The supervision timeout of a link, in ms (R182). -/
def Settings.timeoutMs (t : Settings) : Party → Int
  | .console => t.consoleMs
  | .drive => t.driveMs
  | .car1 => t.car1Ms
  | .car2 => t.car2Ms
  | .loopStation => t.loopMs

/-- The class of a kind in the class table (R171). -/
def OperatingSet.classOf (o : OperatingSet) (k : FaultKind) : StopClass :=
  o.classes.getD (k.code - 1) k.defaultClass

/-! ## Links and records -/

/-- The link of a party. -/
def State.link (s : State) (p : Party) : Link := s.links.get p

/-- Whether a link is UP (R182). -/
def State.linkUp (s : State) (p : Party) : Bool := (s.link p).up

/-- Changes the link of a party. -/
def State.modLink (s : State) (p : Party) (f : Link → Link) : State :=
  { s with links := s.links.set p (f (s.links.get p)) }

/-! ## Runs -/

/-- Whether a run state is one of those in which door and gate supervision applies (R90). -/
def RunState.doorSupervised : RunState → Bool
  | .releasing | .running | .finalApproach | .settling | .suspending => true
  | _ => false

/-- Whether a run state is one of those in which overspeed supervision applies (R121). -/
def RunState.speedSupervised : RunState → Bool
  | .releasing | .running | .finalApproach | .settling | .suspending | .faultStopping => true
  | _ => false

/-- Whether the reference is 0 in a run state from its entry on (R115). -/
def RunState.zeroReference : RunState → Bool
  | .parked | .preparing | .releasing | .dwell | .suspended | .faultHeld => true
  | _ => false

/-- Whether a run state is a fault state. -/
def RunState.isFault : RunState → Bool
  | .faultStopping | .faultHeld => true
  | _ => false

/-- |v| of the latest published sample. -/
def State.absV (s : State) : Int := mag s.reck.sample.v

end Sys2Proof.Machine
end

