-- ==== Sys2Proof/Machine/Track.lean ====
section
/-!
DEFINITION. The Track Table: lookup of a position (R7), the local limit (R8), standing in the loop
(R9), who sees which checkpoint (R11), and validation items 1 to 10 (R14 to R19).
-/

namespace Sys2Proof.Machine

/-! ## Segments in force and lookup -/

/-- The segments in force (R5). -/
def OperatingSet.segments (o : OperatingSet) : List Segment := o.segs.take o.segCount

/-- The checkpoints in force (R10). -/
def OperatingSet.checkpoints (o : OperatingSet) : List Checkpoint := o.cps.take o.cpCount

/-- The segment with an index, among the segments in force. -/
def OperatingSet.seg (o : OperatingSet) (i : Nat) : Segment := o.segments.getD i Segment.factory

/-- The index of the last segment in force. -/
def OperatingSet.lastSeg (o : OperatingSet) : Nat := o.segments.length - 1

/-- The highest index whose start is at or below p, counting from index i; acc where there is none. -/
def highestAtOrBelow (p : Int) : List Segment → Nat → Nat → Nat
  | [], _, acc => acc
  | g :: rest, i, acc => highestAtOrBelow p rest (i + 1) (if g.start ≤ p then i else acc)

/-- The index of the segment in which a position is looked up (R7). -/
def OperatingSet.lookup (o : OperatingSet) (lr p : Int) : Nat :=
  if p < 0 then 0
  else if lr ≤ p then o.lastSeg
  else highestAtOrBelow p o.segments 0 0

/-- The segment in which a position is looked up (R7). -/
def OperatingSet.segAt (o : OperatingSet) (lr p : Int) : Segment := o.seg (o.lookup lr p)

/-- The end of segment i: the start of the next one in force, or L_r for the last (R5). -/
def OperatingSet.segEnd (o : OperatingSet) (lr : Int) (i : Nat) : Int :=
  match o.segments[i + 1]? with
  | some g => g.start
  | none => lr

/-- The least of a list of integers, starting from a first value. -/
def least (x : Int) (xs : List Int) : Int := xs.foldl min x

/-- The lowest speed limit among the segments in force (R8). -/
def OperatingSet.lowestLimit (o : OperatingSet) : Int :=
  least (o.seg 0).limit (o.segments.map (·.limit))

/-- The local speed limit at two car positions (R8). -/
def OperatingSet.localLimit (o : OperatingSet) (lr p1 p2 : Int) : Int :=
  min (o.segAt lr p1).limit (o.segAt lr p2).limit

/-- Whether car k stands in the loop: by the latest published sample, or always while no sample has
been published with the Reckoner REFERENCED (R2, R9). -/
def State.standsInLoop (s : State) (k : Car) : Bool :=
  if s.reck.sample.referenced then
    decide ((s.store.active.segAt s.lr (s.reck.sample.p.get k)).kind = .loop)
  else true

/-- Whether a checkpoint of a branch is seen by car k (R11). -/
def Branch.seenBy : Branch → Car → Bool
  | .any, _ => true
  | .east, .one => true
  | .west, .two => true
  | _, _ => false

/-- The car that a branch checkpoint names (R11). -/
def Branch.car : Branch → Option Car
  | .any => none
  | .east => some .one
  | .west => some .two

/-! ## Validation -/

/-- Whether each member of a list stands in a relation to the next one. -/
def eachNext {α : Type} (r : α → α → Bool) : List α → Bool
  | a :: b :: rest => r a b && eachNext r (b :: rest)
  | _ => true

/-- Whether each pair of members of a list, an earlier and a later one, stand in a relation. -/
def eachPair {α : Type} (r : α → α → Bool) : List α → Bool
  | [] => true
  | a :: rest => rest.all (r a) && eachPair r rest

/-- The segments of which a position lies inside: start ≤ p < end (R14). -/
def OperatingSet.inside (o : OperatingSet) (lr p : Int) (kind : SegKind) : Bool :=
  o.segments.zipIdx.any fun gi =>
    decide (gi.1.start ≤ p) && decide (p < o.segEnd lr gi.2) && decide (gi.1.kind = kind)

/-- Item 1 (R15). -/
def OperatingSet.item1 (o : OperatingSet) (lr : Int) : Bool :=
  decide ((o.seg 0).start = 0)
    && eachNext (fun a b => decide (a.start < b.start)) o.segments
    && o.segments.all fun g => decide (g.start < lr)

/-- The indices of the LOOP segments in force. -/
def OperatingSet.loopIndices (o : OperatingSet) : List Nat :=
  (o.segments.zipIdx.filter fun gi => decide (gi.1.kind = .loop)).map (·.2)

/-- Item 2 (R15): the LOOP segments are one contiguous run that contains the nominal passing point. -/
def OperatingSet.item2 (o : OperatingSet) (lr : Int) : Bool :=
  match o.loopIndices with
  | [] => false
  | i :: rest =>
    let j := (i :: rest).getLastD i
    let mid := floorDiv lr 2
    eachNext (fun a b => b == a + 1) (i :: rest)
      && decide ((o.seg i).start ≤ mid) && decide (mid < o.segEnd lr j)

/-- Item 3 (R16). -/
def OperatingSet.item3 (o : OperatingSet) (lr : Int) : Bool :=
  o.inside lr o.lower.mark1 .platform && o.inside lr o.lower.mark2 .platform
    && o.inside lr o.upper.mark1 .platform && o.inside lr o.upper.mark2 .platform
    && o.inside lr o.loop.mark1 .loop && o.inside lr o.loop.mark2 .loop

/-- Item 4 (R16). -/
def OperatingSet.item4 (o : OperatingSet) : Bool :=
  decide (o.lower.mark1 < o.loop.mark1) && decide (o.loop.mark1 < o.upper.mark1)

/-- Item 5 for one stop (R16). -/
def StopRecord.near (r : StopRecord) (lr : Int) : Bool :=
  decide (mag (r.mark1 - (lr - r.mark2)) ≤ 5000)

/-- Item 5 (R16). -/
def OperatingSet.item5 (o : OperatingSet) (lr : Int) : Bool :=
  o.lower.near lr && o.loop.near lr && o.upper.near lr

/-- Item 6 (R17). -/
def OperatingSet.item6 (o : OperatingSet) (lr : Int) : Bool :=
  o.checkpoints.all (fun c => decide (0 < c.pos) && decide (c.pos < lr))
    && eachNext (fun a b => decide (a.pos ≤ b.pos)) o.checkpoints

/-- Item 7 (R17). -/
def OperatingSet.item7 (o : OperatingSet) (lr : Int) : Bool :=
  o.checkpoints.all fun c =>
    let loopSeg := decide ((o.segAt lr c.pos).kind = .loop)
    match c.branch with
    | .any => !loopSeg
    | _ => loopSeg

/-- The checkpoint sequence of car k (R11). -/
def OperatingSet.sequence (o : OperatingSet) (k : Car) : List Checkpoint :=
  o.checkpoints.filter fun c => c.branch.seenBy k

/-- Whether two neighbouring checkpoints lie more than the sum of their tolerances apart (R18). -/
def Checkpoint.apart (a b : Checkpoint) : Bool := decide (a.tol + b.tol < b.pos - a.pos)

/-- Item 8 (R18). -/
def OperatingSet.item8 (o : OperatingSet) : Bool :=
  eachNext Checkpoint.apart (o.sequence .one) && eachNext Checkpoint.apart (o.sequence .two)

/-- Item 9 (R18). -/
def OperatingSet.item9 (o : OperatingSet) : Bool :=
  eachPair (fun a b => a.input != b.input) o.checkpoints

/-- Item 10 (R19). -/
def OperatingSet.item10 (o : OperatingSet) : Bool := decide (o.settings.dF + 50 ≤ o.settings.m)

/-- The number of the first validation item that does not hold, or `none` for a pass (R14).  While
L_r is unset, item 1 fails. -/
def OperatingSet.validate (o : OperatingSet) (lr : Option Int) : Option Nat :=
  match lr with
  | none => some 1
  | some lr =>
    if !o.item1 lr then some 1
    else if !o.item2 lr then some 2
    else if !o.item3 lr then some 3
    else if !o.item4 then some 4
    else if !o.item5 lr then some 5
    else if !o.item6 lr then some 6
    else if !o.item7 lr then some 7
    else if !o.item8 then some 8
    else if !o.item9 then some 9
    else if !o.item10 then some 10
    else none

end Sys2Proof.Machine
end

