-- ==== Sys2Proof/Machine/Position.lean ====
section
/-!
DEFINITION. Position reckoning as arithmetic: channel speeds and positions (R21 to R24), loads and
stretch (R31, R32), and the reckoned positions (R33).
-/

namespace Sys2Proof.Machine

/-! ## Channels -/

/-- The greatest magnitude of a channel speed (R21). -/
def speedBound : Int := 20000

/-- The position of a channel: its base position plus the scaled count from its base (R23). -/
def ChannelRecord.position (c : ChannelRecord) (scale : Int) : Int :=
  c.basePos + floorDiv ((c.count - c.baseCount).toInt * scale) 1000

/-- A rebase: the base that keeps a stated position at this event (R24). -/
def ChannelRecord.rebase (c : ChannelRecord) (pos : Int) : ChannelRecord :=
  { c with baseCount := c.count, basePos := pos }

/-- One quadrature edge at a capture time (R20); `now` restarts the stall clock (R26). -/
def ChannelRecord.edge (c : ChannelRecord) (sense : Sense) (t : CaptureTime) (now : Nat) :
    ChannelRecord :=
  { c with
    count := (match sense with
      | .up => c.count + 1
      | .down => c.count - 1)
    edgeTime := some t
    edges := c.edges + 1
    stallFrom := now }

/-- The speed of a window with edges, whose last edge lies `dt` µs after the reference edge (R21). -/
def measuredSpeed (dcount scale : Int) (dt : Nat) : Int :=
  if dcount = 0 then 0
  else if dt = 0 then Config.speedOverNoTime dcount scale
  else dcount.sign * floorDiv (mag dcount * scale * 1000) dt

/-- The speed of a window without edges, `elapsed` µs after the reference edge (R22). -/
def decayedSpeed (previous scale : Int) (elapsed : Nat) : Int :=
  if elapsed = 0 then Config.speedOverNoTime previous scale
  else previous.sign * min (mag previous) (floorDiv (scale * 1000) elapsed)

/-- What a channel becomes at a sample expiry at sample time t: its speed, its reference edge, and
the start of a new window (R20 to R22). -/
def ChannelRecord.sample (c : ChannelRecord) (scale : Int) (t : CaptureTime) : ChannelRecord :=
  let c' := { c with edges := 0, lastCount := c.count }
  if c.edges = 0 then
    match c.refEdge with
    | none => { c' with speed := 0 }
    | some r =>
      let elapsed := (t - r).toNat
      if elapsed ≤ 1000000 then
        { c' with speed := clamp (decayedSpeed c.speed scale elapsed) (-speedBound) speedBound }
      else { c' with speed := 0, refEdge := none }
  else
    match c.refEdge, c.edgeTime with
    | some r, some e =>
      { c' with
        speed := clamp (measuredSpeed (c.count - c.lastCount).toInt scale (e - r).toNat)
          (-speedBound) speedBound
        refEdge := some e }
    | _, e => { c' with speed := 0, refEdge := e }

/-- The position of a channel at this event (R23). -/
def State.chanPos (s : State) (ch : Channel) : Int := (s.chan.get ch).position (s.scale ch)

/-- The rope coordinate s at this event (R23). -/
def State.rope (s : State) : Int := s.chanPos s.reck.source

/-! ## Loads and stretch -/

/-- The load of car k, or unknown: the frozen load while the Run Record holds one, else the load of
the party record (R31). -/
def State.load (s : State) (k : Car) : Option Int :=
  match s.run.record.bind (·.frozen) with
  | some f => f.get k
  | none => (s.recs.car.get k).load

/-- The load of car k as it is counted: an unknown load counts as M_max (R31). -/
def State.loadCounted (s : State) (k : Car) : Int := (s.load k).getD (s.const .mMax)

/-- The tension proxy T_k (R32). -/
def State.tension (s : State) (k : Car) : Int :=
  floorDiv ((s.const .me + s.loadCounted k) * s.const .g) 1000

/-- The stretch of car k on a length of rope (R32). -/
def State.stretchOn (s : State) (k : Car) (ropeLength : Int) : Int :=
  floorDiv (s.tension k * ropeLength * s.const .sc) 1000000000

/-- The rope length of car k at rope coordinate x, clamped to L_0 .. L_0 + L_r (R32). -/
def State.ropeLength (s : State) (k : Car) (x : Int) : Int :=
  let l0 := s.const .l0
  match k with
  | .one => clamp (l0 + (s.lr - x)) l0 (l0 + s.lr)
  | .two => clamp (l0 + x) l0 (l0 + s.lr)

/-- The stretch e_k at rope coordinate x (R32). -/
def State.stretch (s : State) (k : Car) (x : Int) : Int := s.stretchOn k (s.ropeLength k x)

/-- The stretch of car k at a known track position (R32). -/
def State.stretchAtTrack (s : State) (k : Car) (pos : Int) : Int :=
  s.stretchOn k (s.const .l0 + s.lr - pos)

/-- The reckoned position p_k at rope coordinate x with a correction (R33). -/
def State.reckoned (s : State) (k : Car) (x c : Int) : Int :=
  match k with
  | .one => x - s.stretch .one x + c
  | .two => s.lr - x - s.stretch .two x + c

end Sys2Proof.Machine
end

