-- ==== Sys2Proof/Machine/Target.lean ====
section
/-!
DEFINITION. The Stop Target Unit (R126 to R134): the exact targets of both cars, the shared or split
result, the favoured car, the held target and the queries.
-/

namespace Sys2Proof.Machine

/-- The car a side names, when it names a single one (R130). -/
def Side.single : Side → Option Car
  | .east => some .one
  | .west => some .two
  | .both => none

/-- The favoured car of a split stop: the car named by the oldest entry of the list with a
single-car side, else car 1 (R130). -/
def favouredOf (list : List Entry) : Car := (list.findSome? (·.side.single)).getD .one

/-- The exact target of car 1 for a stop (R127, R128). -/
def State.exact1 (s : State) (x : Stop) : Int :=
  let r := s.store.active.stopRec x
  r.mark1 + s.stretchAtTrack .one r.mark1 - s.reck.c.one

/-- The exact target of car 2 for a stop (R127, R128). -/
def State.exact2 (s : State) (x : Stop) : Int :=
  let r := s.store.active.stopRec x
  s.lr - r.mark2 - s.stretchAtTrack .two r.mark2 + s.reck.c.two

/-- The target of two exact targets with a window and a list that names the favoured car (R129 to
R131). -/
def makeTarget (x : Stop) (s1 s2 window : Int) (list : List Entry) : HeldTarget :=
  if mag (s1 - s2) ≤ 2 * window then
    let t := floorDiv (s1 + s2) 2
    ⟨x, ⟨s1, s2⟩, true, t, none, ⟨t - s1, s2 - t⟩⟩
  else
    let k := favouredOf list
    let t := (PerCar.mk s1 s2).get k
    ⟨x, ⟨s1, s2⟩, false, t, some k, ⟨t - s1, s2 - t⟩⟩

/-- The target for a stop from the values standing now, with a list of entries (R127 to R131). -/
def State.targetFor (s : State) (x : Stop) (list : List Entry) : HeldTarget :=
  makeTarget x (s.exact1 x) (s.exact2 x) (s.window x) list

/-- The entries of the served-entry list, in queue order (R69). -/
def State.servedEntries (s : State) : List Entry :=
  match s.run.record with
  | some r => s.queue.filter fun e => r.served.contains e.id
  | none => []

/-- The queued entries for a stop, in queue order. -/
def State.entriesFor (s : State) (x : Stop) : List Entry :=
  s.queue.filter fun e => decide (e.id.stop = x)

/-- The list from which a query takes the favoured car (R130). -/
def State.queryList (s : State) (x : Stop) : List Entry :=
  match s.target, s.run.record with
  | some t, some _ => if t.stop = x then s.servedEntries else s.entriesFor x
  | _, _ => s.entriesFor x

/-- The answer s*(x) to a query; it changes nothing (R132). -/
def State.starOf (s : State) (x : Stop) : Int := (s.targetFor x (s.queryList x)).sStar

/-- Forms the held target anew for a stop and writes s* into the Run Record (R126, R133). -/
def State.formTarget (s : State) (x : Stop) : State :=
  let t := s.targetFor x s.servedEntries
  { s with
    target := some t
    run := { s.run with record := s.run.record.map fun r => { r with sStar := some t.sStar } } }

/-- A change of a correction: the held target is formed anew for its own stop, unless it is absent or
the run state is FAULT_STOPPING (R134). -/
def State.reformTarget (s : State) : State :=
  match s.target with
  | some t => if s.run.state = .faultStopping then s else s.formTarget t.stop
  | none => s

end Sys2Proof.Machine
end

