-- ==== Sys2Proof/Machine/Profile.lean ====
section
/-!
DEFINITION. The Profile Unit: run deceleration (R108, R109), permitted speed (R110 to R114),
reference (R115 to R120) and supervision (R121 to R123).
-/

namespace Sys2Proof.Machine

/-! ## The run deceleration -/

/-- Changes the Profile Unit's state. -/
def State.modProf (s : State) (f : Profile → Profile) : State := { s with prof := f s.prof }

/-- The position at which the travel span of car k ends, with the rope at x and the target t (R108). -/
def spanEnd (k : Car) (p x t : Int) : Int :=
  match k with
  | .one => p + (t - x)
  | .two => p - (t - x)

/-- The gradient classes of the segments of a span, by the lookup at its two ends and every segment
in force between them (R108). -/
def OperatingSet.spanGrads (o : OperatingSet) (lr a b : Int) : List (Fin 4) :=
  let i := o.lookup lr (min a b)
  let j := o.lookup lr (max a b)
  ((o.segments.zipIdx.filter fun gi => decide (i ≤ gi.2) && decide (gi.2 ≤ j)).map (·.1.grad))
    ++ [(o.seg i).grad, (o.seg j).grad]

/-- The smallest a_c[g] among a list of gradient classes (R108). -/
def Settings.leastDecel (t : Settings) : List (Fin 4) → Int
  | [] => t.ac3
  | g :: gs => least (t.decel g) (gs.map t.decel)

/-- The class deceleration a_cls with the cars at given positions and the rope at x (R108): over both
cars' travel spans for a run with a target, over all segments in force without one. -/
def State.classDecel (s : State) (p : PerCar Int) (x : Int) (target : Option Int) : Int :=
  let o := s.store.active
  match target with
  | some t =>
    s.settings.leastDecel
      (o.spanGrads s.lr p.one (spanEnd .one p.one x t)
        ++ o.spanGrads s.lr p.two (spanEnd .two p.two x t))
  | none => s.settings.leastDecel (o.segments.map (·.grad))

/-- The imbalance I of the loads (R109). -/
def State.imbalance (s : State) : Int :=
  match s.load .one, s.load .two with
  | none, none => s.const .mMax
  | _, _ => mag (s.loadCounted .one - s.loadCounted .two)

/-- a_run from a class deceleration and an imbalance (R109). -/
def derate (aCls imbalance : Int) : Int :=
  floorDiv (aCls * (100 - min 40 (floorDiv imbalance 250))) 100

/-- a_run as it is formed with the cars at given positions and the rope at x (R108, R109). -/
def State.runDecel (s : State) (p : PerCar Int) (x : Int) (target : Option Int) : Int :=
  derate (s.classDecel p x target) s.imbalance

/-- The target s* of the held target, if one is held. -/
def State.star (s : State) : Option Int := s.target.map (·.sStar)

/-- Creates the run context at PREPARING exit, from the Run Record and the latest published sample
(R107, R108).  That sample is the one before where a referencing falls at the same event (DESIGN CHOICE,
unsafe; notes/assumptions/44.md). -/
def State.createContext (s : State) (r : RunRecord) : State :=
  let smp := s.reck.sample
  let target := if r.target.isSome then s.star else none
  s.modProf fun p =>
    { p with
      ctx := some
        { dir := r.dir
          creep := decide (r.mode = .creep)
          aRun := s.runDecel smp.p smp.s target
          hasTarget := r.target.isSome } }

/-- Gives the run context its new target: a_run is formed again with the cars at given positions and
the rope at x (R107). -/
def State.retarget (s : State) (p : PerCar Int) (x : Int) : State :=
  s.modProf fun pr =>
    { pr with
      ctx := pr.ctx.map fun c => { c with aRun := s.runDecel p x s.star, hasTarget := true } }

/-! ## The permitted speed -/

/-- Whether a sample that finds this run state forms v_p (R114). -/
def RunState.permits : RunState → Bool
  | .running | .finalApproach | .suspending | .faultStopping => true
  | _ => false

/-- The distance to target d for a run context, with the rope at the latest published s; absent for a
context without a target, and 0 when the target is overshot (R110).  A target that a referencing at the
sample's own event has given counts (DESIGN CHOICE, unsafe; notes/assumptions/39.md). -/
def State.distance (s : State) : Option Int :=
  match s.prof.ctx, s.star with
  | some c, some t =>
    if c.hasTarget then some (max 0 ((t - s.reck.sample.s) * c.dir.sign)) else none
  | _, _ => none

/-- The target curve speed at distance d (R111). -/
def targetCurve (aRun d m : Int) : Int := isqrt (2 * aRun * max 0 (d - m))

/-- The boundary curve speed for a limit beyond the boundary (R112). -/
def boundaryCurve (limit aRun dist : Int) : Int := isqrt (limit * limit + 2 * aRun * dist)

/-- The boundaries of a list of segments: for each segment but the first its start, the limit below
it and its own limit (R7). -/
def boundaries : List Segment → List (Int × Int × Int)
  | a :: b :: rest => (b.start, a.limit, b.limit) :: boundaries (b :: rest)
  | _ => []

/-- The boundary curve speeds of one car, whose span goes from p to stop in the rising or falling
direction of track positions (R112). -/
def OperatingSet.boundarySpeeds (o : OperatingSet) (rising : Bool) (p stop aRun : Int) : List Int :=
  (boundaries o.segments).filterMap fun (b, below, above) =>
    if rising then
      if p < b ∧ b ≤ stop ∧ above < below then some (boundaryCurve above aRun (b - p)) else none
    else if stop < b ∧ b ≤ p ∧ below < above then some (boundaryCurve below aRun (p - b)) else none

/-- Every v_b of both cars for a run context and a target, at the latest published sample (R112). -/
def State.boundaryTerms (s : State) (c : RunContext) (t : Int) : List Int :=
  let o := s.store.active
  let smp := s.reck.sample
  let up := decide (c.dir = .up)
  o.boundarySpeeds up smp.p.one (spanEnd .one smp.p.one smp.s t) c.aRun
    ++ o.boundarySpeeds (!up) smp.p.two (spanEnd .two smp.p.two smp.s t) c.aRun

/-- The caps in force (R113). -/
def State.caps (s : State) (c : RunContext) : List Int :=
  (if s.prof.wind then [s.settings.windCap] else [])
    ++ (if s.prof.source = .alt then [floorDiv (s.prof.vLocal * s.settings.failoverPct) 100] else [])
    ++ (if c.creep then [s.settings.vCreep] else [])

/-- v_local from the latest published sample (R8). -/
def State.formLocal (s : State) : Int :=
  let smp := s.reck.sample
  if smp.referenced then s.store.active.localLimit s.lr smp.p.one smp.p.two
  else s.store.active.lowestLimit

/-- v_tgt of a run context (R111). -/
def State.formTgt (s : State) (c : RunContext) : Option Int :=
  s.distance.map fun d => targetCurve c.aRun d s.settings.m

/-- The permitted speed of a run context, with v_local and v_tgt as given (R114). -/
def State.formPermitted (s : State) (c : RunContext) (vTgt : Option Int) : Int :=
  least 12000
    (s.prof.vLocal :: vTgt.toList
      ++ (match s.distance, s.star with
          | some _, some t => s.boundaryTerms c t
          | _, _ => [])
      ++ s.caps c)

/-- What the Profile Unit forms at a published sample before the Run Controller takes it: v_local,
v_tgt and v_p for the run state the sample finds (R8, R111, R114). -/
def State.permit (s : State) : State :=
  let s := s.modProf fun p => { p with vLocal := s.formLocal }
  match s.run.state.permits, s.prof.ctx with
  | true, some c =>
    let vTgt := s.formTgt c
    s.modProf fun p => { p with vTgt := vTgt, vP := s.formPermitted c vTgt }
  | _, _ => s.modProf fun p => { p with vTgt := none, vP := 0 }

/-! ## The reference -/

/-- The fall of a ramp at one sample: floor(a_run × 10 / 1000) (R118, R119). -/
def rampStep (aRun : Int) : Int := floorDiv (aRun * 10) 1000

/-- a_run of the run context. -/
def State.aRun (s : State) : Int := (s.prof.ctx.map (·.aRun)).getD 0

/-- The direction sign of the run context. -/
def State.runSign (s : State) : Int := (s.prof.ctx.map (·.dir.sign)).getD 1

/-- The magnitude of the reference formed at a sample that leaves a run state standing (R115 to
R119). -/
def State.refMagnitude (s : State) : Int :=
  let prev := mag s.prof.vRef
  match s.run.state with
  | .running => min s.prof.vP (prev + floorDiv (s.settings.aAcc * 10) 1000)
  | .finalApproach => s.settings.vCreep
  | .suspending => max 0 (min s.prof.vP (prev - rampStep s.aRun))
  | .settling =>
    if s.run.flavour = some .creepLapse then max 0 (prev - rampStep s.aRun) else 0
  | .faultStopping =>
    if s.run.stopClass = some .serviceStop then max 0 (min s.prof.vP (prev - rampStep s.aRun)) else 0
  | _ => 0

/-- Forms the reference of a sample, signed by the run's direction (R115). -/
def State.formReference (s : State) : State :=
  s.modProf fun p => { p with vRef := s.runSign * s.refMagnitude }

/-! ## Supervision -/

/-- v_sup of a supervised sample (R121). -/
def State.formSup (s : State) : Int :=
  let creepTerm :=
    match s.distance with
    | some d => if d > s.settings.dF then s.settings.vCreep else 0
    | none => s.settings.vCreep
  max (max s.prof.vP creepTerm) (max (s.prof.vSup - rampStep s.aRun) 0)

/-- Whether the curve test trips at a supervision speed (R122). -/
def curveTrips (absV vSup : Int) : Bool := decide (absV > vSup + max 200 (floorDiv vSup 20))

/-- Whether the limit test trips at a local limit (R123). -/
def limitTrips (absV vLocal : Int) : Bool := decide (absV > floorDiv (vLocal * 115) 100)

/-- Supervision of a published sample, in the run state that stands (R121 to R123). -/
def State.supervise (s : State) : State :=
  if s.run.state.speedSupervised then
    let vSup := s.formSup
    s.modProf fun p =>
      { p with
        vSup := vSup
        curve := curveTrips s.absV vSup
        limit := limitTrips s.absV p.vLocal }
  else s

end Sys2Proof.Machine
end

