-- ==== Sys2Proof/Machine/Brakes.lean ====
section
/-!
DEFINITION. The orders of the Brake and Drive Command Unit: RELEASE (R142), APPLY (R143), ENABLE and
DISABLE (R147), the EMERGENCY demand (R154), brake feedback (R144) and effectiveness checks (R148).
-/

namespace Sys2Proof.Machine

/-- Changes the Brake and Drive Command Unit's state. -/
def State.modBrk (s : State) (f : BrakeUnit → BrakeUnit) : State := { s with brk := f s.brk }

/-- The release output of a brake: energised in RELEASING and RELEASED (R141). -/
def Brake.output (b : Brake) : Bool :=
  match b.state with
  | .releasing | .released => true
  | .applied | .applying => false

/-- Whether an application of a brake is over: APPLIED, or its apply-ended mark is set (R104, R151). -/
def Brake.done (b : Brake) : Bool := decide (b.state = .applied) || b.ended

/-- APPLY of one brake (R143): `isOpen` is its open output, `deadline` its apply deadline in µs. -/
def Brake.apply (b : Brake) (now deadline : Nat) (isOpen : Bool) : Brake :=
  match b.state with
  | .releasing | .released =>
    if isOpen then { state := .applying, due := some (now + deadline), ended := b.ended }
    else { state := .applied, due := none, ended := false }
  | .applied | .applying => b

/-- RELEASE of one brake (R142): `isOpen` is its open output, `deadline` its release deadline in µs. -/
def Brake.release (b : Brake) (now deadline : Nat) (isOpen : Bool) : Brake :=
  match b.state with
  | .applied | .applying =>
    if isOpen then { state := .released, due := none, ended := false }
    else { state := .releasing, due := some (now + deadline), ended := false }
  | .releasing | .released => b

/-- A rise of a brake's open output (R144). -/
def Brake.rise (b : Brake) : Brake :=
  match b.state with
  | .releasing => { b with state := .released, due := none }
  | _ => b

/-- A fall of a brake's open output in APPLYING (R144). -/
def Brake.fall (b : Brake) : Brake :=
  match b.state with
  | .applying => { state := .applied, due := none, ended := false }
  | _ => b

/-- The apply deadline in µs. -/
def State.applyDeadline (s : State) : Nat := ms s.settings.applyMs.toNat

/-- The release deadline in µs. -/
def State.releaseDeadline (s : State) : Nat := ms s.settings.releaseMs.toNat

/-- The open output of the service brake: slot 3 (R50). -/
def State.serviceOpen (s : State) : Bool := s.out 3

/-- The open output of the emergency brake: slot 4 (R50). -/
def State.emergencyOpen (s : State) : Bool := s.out 4

/-- Whether a brake belongs to a running effectiveness check (R148). -/
def BrakeUnit.checked (u : BrakeUnit) : BrakeSet :=
  ⟨u.checks.any (·.brakes.service), u.checks.any (·.brakes.emergency)⟩

/-- Starts an effectiveness check for the brakes that enter APPLYING at this event, when |v| exceeds
v_creep and one of them belongs to no running check (R148). -/
def State.startCheck (s : State) (entering : BrakeSet) : State :=
  let new : BrakeSet :=
    ⟨entering.service && !s.brk.checked.service, entering.emergency && !s.brk.checked.emergency⟩
  if s.absV > s.settings.vCreep ∧ new.any = true then
    s.modBrk fun u => { u with checks := u.checks ++ [⟨new, s.absV, s.time + ms 1000, false⟩] }
  else s

/-- An APPLY of a set of brakes (R143, R148). -/
def State.apply (s : State) (which : BrakeSet) : State :=
  let entering : BrakeSet :=
    ⟨which.service && s.brk.service.output, which.emergency && s.brk.emergency.output⟩
  let s1 := s.modBrk fun u =>
    { u with
      service :=
        if which.service then u.service.apply s.time s.applyDeadline s.serviceOpen else u.service
      emergency :=
        if which.emergency then u.emergency.apply s.time s.applyDeadline s.emergencyOpen
        else u.emergency }
  s1.startCheck entering

/-- A RELEASE order (R142). -/
def State.release (s : State) : State :=
  s.modBrk fun u =>
    { u with
      service := u.service.release s.time s.releaseDeadline s.serviceOpen
      emergency := u.emergency.release s.time s.releaseDeadline s.emergencyOpen }

/-- An ENABLE order (R147). -/
def State.enableDrive (s : State) : State := s.modBrk fun u => { u with enable := true }

/-- A DISABLE order: a brake whose release output is energised goes to APPLYING first (R147). -/
def State.disableDrive (s : State) : State :=
  (s.apply .both).modBrk fun u => { u with enable := false }

/-- The EMERGENCY demand: all three outputs de-energise at this event (R154). -/
def State.emergencyDemand (s : State) : State :=
  (s.apply .both).modBrk fun u => { u with enable := false, quickDue := none }

/-- The brakes that have lost their release: the open output has fallen in RELEASED (R144). -/
def State.lostRelease (s : State) (old : List Slot) : BrakeSet :=
  ⟨slotOut old 3 && !s.serviceOpen && decide (s.brk.service.state = .released),
   slotOut old 4 && !s.emergencyOpen && decide (s.brk.emergency.state = .released)⟩

/-- One brake takes the change of its open output from `was` to `is`, other than a loss of release
(R144). -/
def Brake.feedback (b : Brake) (was is : Bool) : Brake :=
  if was = is then b else if is then b.rise else b.fall

/-- The unit takes the changes of slots 3 and 4 since `old`, without reporting (R144).  A brake that
has lost its release is applied, each with a check of its own. -/
def State.brakeFeedback (s : State) (old : List Slot) : State :=
  let lost := s.lostRelease old
  let s1 := s.modBrk fun u =>
    { u with
      service := u.service.feedback (slotOut old 3) s.serviceOpen
      emergency := u.emergency.feedback (slotOut old 4) s.emergencyOpen }
  let s2 := if lost.service then s1.apply ⟨true, false⟩ else s1
  if lost.emergency then s2.apply ⟨false, true⟩ else s2

/-- The reports of the brakes that have lost their release, one for each brake (R144). -/
def lostReports (lost : BrakeSet) : List Report :=
  (if lost.service then [⟨.brakeReleaseTimeout, ⟨false, false⟩, ⟨true, false⟩⟩] else [])
    ++ (if lost.emergency then [⟨.brakeReleaseTimeout, ⟨false, false⟩, ⟨false, true⟩⟩] else [])

end Sys2Proof.Machine
end

