-- ==== Sys2Proof/Machine/RunState.lean ====
section
/-!
DEFINITION. What a change of run state does in every block (R78), and the entries into the fault
states (R77, R103).
-/

namespace Sys2Proof.Machine

/-- Changes the Run Controller's state. -/
def State.modRun (s : State) (f : RunControl → RunControl) : State := { s with run := f s.run }

/-- What the Profile Unit does at the entry into a run state (R107, R115, R121 to R123). -/
def Profile.enter (p : Profile) (st : RunState) (flavour : Option Flavour)
    (cls : Option StopClass) : Profile :=
  let zeroRef :=
    st.zeroReference
      || (decide (st = .settling) && decide (flavour ≠ some .creepLapse))
      || (decide (st = .faultStopping) && decide (cls ≠ some .serviceStop))
  let discards := match st with
    | .dwell | .parked | .faultHeld => true
    | _ => false
  { p with
    vRef := if zeroRef then 0 else p.vRef
    ctx := if discards then none else p.ctx
    stopClass := cls
    vSup := if st.speedSupervised then p.vSup else 0
    curve := p.curve && st.speedSupervised
    limit := p.limit && st.speedSupervised }

/-- Whether the held target and the car-approaching indication end at the entry into a run state
(R126, R136). -/
def RunState.endsTarget : RunState → Bool
  | .dwell | .parked | .faultHeld => true
  | _ => false

/-- A change of run state, with the flavour of a SETTLING and the class of a FAULT_STOPPING. -/
def State.enterState (s : State) (st : RunState) (flavour : Option Flavour := none)
    (cls : Option StopClass := none) : State :=
  { s with
    run :=
      { s.run with
        state := st
        flavour := flavour
        stopClass := cls
        dwellStop := if st = .dwell then s.run.dwellStop else none
        dwellErr := if st = .dwell then s.run.dwellErr else ⟨0, 0⟩
        approaching := s.run.approaching && !st.endsTarget
        changed := s.run.changed || decide (s.run.state ≠ st) }
    prof := s.prof.enter st flavour cls
    target := if st.endsTarget then none else s.target }

/-- The Arbiter's part at a fault stop: the queue is emptied and the shuttle made inactive (R77). -/
def State.clearCalls (s : State) : State :=
  { s with queue := [], shuttle := { s.shuttle with active := false } }

/-- The Run Controller's part at the entry into a fault state: the prepare, dwell and creep hold
timers are stopped and the Run Record is discarded (R103). -/
def State.dropRun (s : State) : State :=
  s.modRun fun r =>
    { r with prepareDue := none, dwellDue := none, creepDue := none, record := none }

/-- Starts the quick-stop timer for a class of QUICK_STOP, and stops it for EMERGENCY (R153, R155).  With
the brakes already APPLYING or APPLIED it runs until the apply that finds nothing to move (DESIGN CHOICE,
unsafe; notes/assumptions/42.md). -/
def State.startClass (s : State) (cls : StopClass) : State :=
  match cls with
  | .quickStop => s.modBrk fun u => { u with quickDue := some (s.time + ms 3000) }
  | .emergency => s.modBrk fun u => { u with quickDue := none }
  | _ => s

/-- Entry into FAULT_STOPPING of a class (R103). -/
def State.enterFaultStopping (s : State) (cls : StopClass) : State :=
  ((s.clearCalls.dropRun).enterState .faultStopping none (some cls)).startClass cls

/-- Entry into FAULT_HELD from a standing state (R103). -/
def State.enterFaultHeld (s : State) : State := (s.clearCalls.dropRun).enterState .faultHeld

/-- A rise of the stop class while FAULT_STOPPING lasts (R103, R120, R155). -/
def State.raiseClass (s : State) (cls : StopClass) : State :=
  (s.enterState .faultStopping none (some cls)).startClass cls

/-- The Run Controller's reaction to a new entry of class SERVICE_STOP or higher, when the demanded
class is `cls` (R103). -/
def State.reactToFault (s : State) (cls : StopClass) : State :=
  match s.run.state with
  | .parked | .preparing | .dwell | .suspended => s.enterFaultHeld
  | .releasing | .running | .finalApproach | .settling | .suspending => s.enterFaultStopping cls
  | .faultStopping =>
    if ((s.run.stopClass.map StopClass.rank).getD 0) < cls.rank then s.raiseClass cls else s
  | .faultHeld => s

end Sys2Proof.Machine
end

