-- ==== Sys2Proof/Machine/Faults.lean ====
section
/-!
DEFINITION. The Fault Handler: the Active Fault Set (R162 to R165), the demanded class (R166), and
the taking of reports.
-/

namespace Sys2Proof.Machine

/-- The entry of a kind, if the set holds one (R162). -/
def State.fault (s : State) (k : FaultKind) : Option FaultEntry := s.faults.find? (·.kind = k)

/-- Puts a new entry in its place in kind order (R162). -/
def insertFault (e : FaultEntry) : List FaultEntry → List FaultEntry
  | [] => [e]
  | f :: rest => if e.kind.code < f.kind.code then e :: f :: rest else f :: insertFault e rest

/-- A repeated latch of an entry (R164). -/
def FaultEntry.relatch (e : FaultEntry) (r : Report) : FaultEntry :=
  { e with
    count := min 255 (e.count + 1)
    isPresent := r.kind.presentType
    cars := e.cars.join r.cars
    brakes := e.brakes.join r.brakes }

/-- The new entry of a report (R163). -/
def State.newEntry (s : State) (r : Report) : FaultEntry where
  kind := r.kind
  cls := s.store.active.classOf r.kind
  firstTime := s.faultClock
  count := 1
  isPresent := r.kind.presentType
  reported := false
  cars := r.cars
  brakes := r.brakes

/-- A latch as it changes the Active Fault Set (R163, R164). -/
def State.latch (s : State) (r : Report) : State :=
  match s.fault r.kind with
  | some _ =>
    { s with faults := s.faults.map fun e => if e.kind = r.kind then e.relatch r else e }
  | none => { s with faults := insertFault (s.newEntry r) s.faults }

/-- The higher of two classes. -/
def StopClass.higher (a b : StopClass) : StopClass := if a.rank < b.rank then b else a

/-- The demanded class: the highest class among the entries, or none (R166). -/
def demanded : List FaultEntry → Option StopClass
  | [] => none
  | e :: rest => some (match demanded rest with
    | some c => e.cls.higher c
    | none => e.cls)

/-- Whether the set holds an entry of class SERVICE_STOP or higher. -/
def State.stopDemanded (s : State) : Bool := s.faults.any fun e => decide (0 < e.cls.rank)

/-- Whether a list of reports creates an entry of class SERVICE_STOP or higher. -/
def State.createsStop (s : State) (rs : List Report) : Bool :=
  rs.any fun r =>
    (s.fault r.kind).isNone && decide (0 < (s.store.active.classOf r.kind).rank)

/-- Whether a list of reports latches an entry of class EMERGENCY. -/
def State.latchesEmergency (s : State) (rs : List Report) : Bool :=
  rs.any fun r =>
    match s.fault r.kind with
    | some e => decide (e.cls = .emergency)
    | none => decide (s.store.active.classOf r.kind = .emergency)

/-- The Fault Handler takes the reports that fall at one event: every latch, then the direct demand
for an EMERGENCY latch (R154), then the Run Controller's reaction to a new entry of class
SERVICE_STOP or higher (R103, R166). -/
def State.takeReports (s : State) (rs : List Report) : State :=
  let s1 := rs.foldl State.latch s
  let s2 := if s.latchesEmergency rs then s1.emergencyDemand else s1
  if s.createsStop rs then s2.reactToFault ((demanded s2.faults).getD .notice) else s2

/-- A single report. -/
def State.report (s : State) (r : Report) : State := s.takeReports [r]

end Sys2Proof.Machine
end

