-- ==== Sys2Proof/Machine/Flags.lean ====
section
/-!
DEFINITION. The conditions of the present fault kinds, each a function of the state (R29, R42, R90,
R159 to R161, R183), and what their rises and falls do.
-/

namespace Sys2Proof.Machine

/-- The conditions in the order in which the state lists them. -/
def Cond.all : List Cond :=
  [.overspeedCurve, .overspeedLimit, .overtravel, .ropeDisplaced, .stationStop, .feedbackLost,
   .feedbackDisagree, .driveFault, .linkLostDrive, .linkLostCar .one, .linkLostCar .two,
   .linkLostLoop, .linkLostConsole, .doorNotLocked .one, .doorNotLocked .two, .carEmergency .one,
   .carEmergency .two, .loopGateOpen, .windSevere, .tableInvalid]

/-- The fault kind of a condition (R158). -/
def Cond.kind : Cond → FaultKind
  | .overspeedCurve => .overspeedCurve
  | .overspeedLimit => .overspeedLimit
  | .overtravel => .overtravel
  | .ropeDisplaced => .ropeDisplaced
  | .stationStop => .stationStop
  | .feedbackLost => .feedbackLost
  | .feedbackDisagree => .feedbackDisagree
  | .driveFault => .driveFault
  | .linkLostDrive => .linkLostDrive
  | .linkLostCar _ => .linkLostCar
  | .linkLostLoop => .linkLostLoop
  | .linkLostConsole => .linkLostConsole
  | .doorNotLocked _ => .doorNotLocked
  | .carEmergency _ => .carEmergency
  | .loopGateOpen => .loopGateOpen
  | .windSevere => .windSevere
  | .tableInvalid => .tableInvalid

/-- The cars a rise of a condition names (R161). -/
def Cond.cars : Cond → CarSet
  | .linkLostCar k | .doorNotLocked k | .carEmergency k => CarSet.only k
  | _ => ⟨false, false⟩

/-- DOOR_NOT_LOCKED for car k (R90): its record reports doors CLOSED or OPEN in a supervised state. -/
def State.doorNotLocked (s : State) (k : Car) : Bool :=
  s.run.state.doorSupervised &&
    match (s.recs.car.get k).doors with
    | .closed | .opened => true
    | .closedLocked | .unknown => false

/-- LOOP_GATE_OPEN (R90): the loop link is UP and a gate is reported OPEN in a supervised state. -/
def State.loopGateOpen (s : State) : Bool :=
  s.run.state.doorSupervised && s.linkUp .loopStation
    && (decide (s.recs.loop.east = .opened) || decide (s.recs.loop.west = .opened))

/-- DRIVE_FAULT (R160): the drive record is not ready, or slot 13 is false, in one of the five
states. -/
def State.driveFault (s : State) : Bool :=
  s.run.state.doorSupervised && (!s.recs.drive.ready || !s.out 13)

/-- FEEDBACK_LOST (R29). -/
def State.feedbackLost (s : State) : Bool :=
  match s.reck.source with
  | .main => s.out 0 && s.out 1
  | .alt => s.out 1

/-- FEEDBACK_DISAGREE (R29). -/
def State.feedbackDisagree (s : State) : Bool :=
  s.out 2 && decide (s.reck.source = .main) && !s.out 0 && !s.out 1

/-- Whether a condition holds in a state. -/
def State.holds (s : State) : Cond → Bool
  | .overspeedCurve => s.prof.curve
  | .overspeedLimit => s.prof.limit
  | .overtravel => s.reck.overtravel || s.out 7 || s.out 8
  | .ropeDisplaced => s.out 12
  | .stationStop => s.out 11
  | .feedbackLost => s.feedbackLost
  | .feedbackDisagree => s.feedbackDisagree
  | .driveFault => s.driveFault
  | .linkLostDrive => !s.linkUp .drive
  | .linkLostCar k => !s.linkUp k.party
  | .linkLostLoop => !s.linkUp .loopStation
  | .linkLostConsole => !s.linkUp .console
  | .doorNotLocked k => s.doorNotLocked k
  | .carEmergency k => s.linkUp k.party && (s.recs.car.get k).emergency
  | .loopGateOpen => s.loopGateOpen
  | .windSevere => s.out 10
  | .tableInvalid => s.tableInvalid

/-- The conditions that hold. -/
def State.holding (s : State) : List Cond := Cond.all.filter s.holds

/-- The conditions that have risen since the Fault Handler last took them. -/
def State.risen (s : State) : List Cond := s.holding.filter fun c => !s.conds.contains c

/-- The report that a rise of a condition makes (R161, R163). -/
def Cond.report (c : Cond) : Report := { kind := c.kind, cars := c.cars }

/-- The Fault Handler takes the conditions as they stand: an entry of a present kind none of whose
conditions holds any more ceases to be present (R165). -/
def State.takeFalls (s : State) : State :=
  let gone := fun (k : FaultKind) =>
    s.conds.any (fun c => decide (c.kind = k)) && !s.holding.any fun c => decide (c.kind = k)
  { s with
    faults := s.faults.map fun e => if gone e.kind then { e with isPresent := false } else e
    conds := s.holding }

/-- The Fault Handler takes every change of a condition at this event: the falls, then the rises as
reports (R163, R165). -/
def State.refresh (s : State) : State := s.takeFalls.takeReports (s.risen.map Cond.report)

end Sys2Proof.Machine
end

