-- ==== Sys2Proof/Machine/Filter.lean ====
section
/-!
DEFINITION. The Condition Filter Bank: source levels (R45), the taking of a level (R46, R47), timer
expiry (R48) and the restart from a new configuration (R53).
-/

namespace Sys2Proof.Machine

/-- The level of a slot source as it stands (R45). -/
def State.sourceLevel (s : State) : SlotSource → Bool
  | .input n => s.input n
  | .mainStall => s.reck.mainStall
  | .altStall => s.reck.altStall
  | .disagree => s.reck.disagree
  | .alwaysFalse => false
  | .alwaysTrue => true

/-- A change of a slot's output to a level: the change flag is set when the output differs (R51). -/
def Slot.drive (sl : Slot) (level : Bool) : Slot :=
  { sl with output := level, flag := sl.flag || (sl.output != level) }

/-- A slot takes a source level, under its configuration record (R46, R47). -/
def Slot.take (cfg : FilterConfig) (now : Nat) (level : Bool) (sl : Slot) : Slot :=
  let sl1 := { sl with level := level, due := none }
  if cfg.enabled then
    if level = sl.output then sl1
    else
      let count := if level then cfg.setMs else cfg.clearMs
      if count = 0 then sl1.drive level else { sl1 with due := some (now + ms count) }
  else sl1.drive level

/-- The configuration record of slot i (R44). -/
def OperatingSet.filter (o : OperatingSet) (i : Nat) : FilterConfig :=
  o.filters.getD i (FilterConfig.factory i)

/-- Every slot takes its source level, where that differs from the level it last took. -/
def State.takeSources (s : State) : State :=
  { s with
    slots := s.slots.zipIdx.map fun (sl, i) =>
      let cfg := s.store.active.filter i
      let level := s.sourceLevel cfg.source
      if level = sl.level then sl else sl.take cfg s.time level }

/-- The restart of the bank from the active configuration: flags cleared, timers stopped, and each
slot takes the level of its source as it stands (R53). -/
def State.restartSlots (s : State) : State :=
  { s with
    slots := s.slots.zipIdx.map fun (sl, i) =>
      let cfg := s.store.active.filter i
      { sl with flag := false }.take cfg s.time (s.sourceLevel cfg.source) }

/-- The expiry of the timers of a set of slots: each of them whose timer is due takes the source
level it last took (R48). -/
def State.expireSlots (s : State) (which : List (Fin 14)) : State :=
  { s with
    slots := s.slots.zipIdx.map fun (sl, i) =>
      if (which.any fun n => n.val == i) && isDue sl.due s.time then
        { sl with due := none }.drive sl.level
      else sl }

end Sys2Proof.Machine
end

