-- ==== Sys2Proof/Machine/Reckon.lean ====
section
/-!
DEFINITION. The Position Reckoner's events: rebases (R24), stall and disagreement (R26, R27),
failover and return (R28, R30), referencing (R34 to R36), checkpoint edges (R37, R39, R40), pass
tests and zones (R38, R41), and the overtravel test (R42).
-/

namespace Sys2Proof.Machine

/-- Changes the Position Reckoner's state. -/
def State.modReck (s : State) (f : Reckoner → Reckoner) : State := { s with reck := f s.reck }

/-- Changes the record of a channel. -/
def State.modChan (s : State) (ch : Channel) (f : ChannelRecord → ChannelRecord) : State :=
  { s with chan := s.chan.set ch (f (s.chan.get ch)) }

/-! ## Feedback source -/

/-- DISAGREE as it stands (R27). -/
def State.disagrees (s : State) : Bool :=
  match s.reck.source with
  | .main => decide (mag (s.chanPos .main - s.chanPos .alt) > s.settings.disagree)
  | .alt => false

/-- The Reckoner evaluates DISAGREE (R27). -/
def State.evalDisagree (s : State) : State := s.modReck fun r => { r with disagree := s.disagrees }

/-- The active source becomes a channel, and the Profile Unit is told (R28, R30). -/
def State.setSource (s : State) (ch : Channel) : State :=
  (s.modReck fun r => { r with source := ch }).modProf fun p => { p with source := ch }

/-- Failover, at the event that leaves its three conditions true (R28). -/
def State.failover (s : State) : State :=
  if s.reck.source = .main ∧ s.out 0 = true ∧ s.out 1 = false then
    ((((s.modChan .alt fun c => c.rebase (s.chanPos .main)).setSource .alt).evalDisagree).report
      { kind := .feedbackFailover })
  else s

/-- Return of the source to MAIN, at the event that leaves its four conditions true (R30). -/
def State.returnToMain (s : State) : State :=
  if s.reck.source = .alt ∧ s.run.state = .parked ∧ (s.fault .feedbackFailover).isNone = true
      ∧ s.out 0 = false then
    ((s.modChan .main fun c => c.rebase (s.chanPos .alt)).setSource .main).evalDisagree
  else s

/-- The stall condition of a channel (R26). -/
def State.stalls (s : State) (ch : Channel) : Bool :=
  decide (s.settings.vCreep ≤ mag s.prof.vRef)
    && decide (s.settings.stallMs * 1000 < (s.time : Int) - (s.chan.get ch).stallFrom)

/-- A sample expiry with |v_ref| below v_creep restarts both stall clocks (R26). -/
def State.restartStall (s : State) : State :=
  if mag s.prof.vRef < s.settings.vCreep then
    { s with
      chan :=
        ⟨{ s.chan.main with stallFrom := s.time }, { s.chan.alt with stallFrom := s.time }⟩ }
  else s

/-- The stall and disagreement conditions at a sample expiry (R26, R27). -/
def State.updateConditions (s : State) : State :=
  let s1 := s.restartStall
  s1.modReck fun r =>
    { r with mainStall := s1.stalls .main, altStall := s1.stalls .alt, disagree := s1.disagrees }

/-! ## Referencing -/

/-- The stops in the order LOWER, LOOP, UPPER (R79). -/
def Stop.all : List Stop := [.lower, .loop, .upper]

/-- The member of a list with the least key, the earlier of two equal ones. -/
def leastBy (key : Stop → Int) : List Stop → Option Stop
  | [] => none
  | x :: rest =>
    match leastBy key rest with
    | some y => if key y < key x then some y else some x
    | none => some x

/-- The creep target with the rope at x: the nearest stop strictly ahead in a direction, if any
(R99).  Of two at equal distance it is the first in the order LOWER, LOOP, UPPER (DESIGN CHOICE, unsafe;
notes/assumptions/38.md). -/
def State.creepTarget (s : State) (dir : Dir) (x : Int) : Option Stop :=
  let ahead := fun y => (s.starOf y - x) * dir.sign
  leastBy ahead (Stop.all.filter fun y => decide (ahead y > s.window y))

/-- Whether a run state lets referencing give an unreferenced creep run its target (R102;
notes/assumptions/13.md). -/
def RunState.takesCreepTarget : RunState → Bool
  | .preparing | .releasing | .running => true
  | _ => false

/-- The Run Controller, the Stop Target Unit and the Profile Unit take a referencing event with the
rope at x: an unreferenced creep run is given its target (R102, R107, R136). -/
def State.takeCreepTarget (s : State) (x : Int) : State :=
  match s.run.record with
  | some r =>
    if r.mode = .creep ∧ r.target.isNone = true ∧ s.run.state.takesCreepTarget = true then
      match s.creepTarget r.dir x with
      | some y =>
        let s1 := s.modRun fun rc =>
          { rc with
            record := some { r with target := some y }
            approaching := rc.approaching || (decide (rc.state = .running) && decide (y = .loop)) }
        let s2 := s1.formTarget y
        s2.retarget ⟨s2.reckoned .one x s2.reck.c.one, s2.reckoned .two x s2.reck.c.two⟩ x
      | none => s
    else s
  | none => s

/-- Zone records that are all OUTSIDE (R36, R38). -/
def Zone.none : PerCar (List Zone) := ⟨List.replicate 24 .outside, List.replicate 24 .outside⟩

/-- A referencing event: the new s, and the zone records it leaves (R36). -/
def State.reference (s : State) (x : Int) (zones : PerCar (List Zone)) : State :=
  let s1 := s.modReck fun r =>
    { r with
      referenced := true
      c := ⟨0, 0⟩
      miss := ⟨0, 0⟩
      zones := zones
      hasPrev := false }
  let s2 := { s1 with chan := ⟨s1.chan.main.rebase x, s1.chan.alt.rebase x⟩ }
  let s3 := s2.evalDisagree.takeCreepTarget x
  s3.modRun fun r => { r with arbitrate := true }

/-- Terminal referencing, at the event that leaves its conditions true (R34). -/
def State.terminalReference (s : State) : State :=
  if s.reck.referenced = false ∧ s.run.standstill = true ∧ (s.out 5 != s.out 6) = true then
    let mark := (s.store.active.stopRec (if s.out 5 then .lower else .upper)).mark1
    s.reference (mark + s.stretchAtTrack .one mark) Zone.none
  else s

/-! ## Checkpoints -/

/-- The zone record of car k for checkpoint slot j. -/
def Reckoner.zone (r : Reckoner) (k : Car) (j : Nat) : Zone := (r.zones.get k).getD j .outside

/-- Sets the zone record of car k for checkpoint slot j. -/
def Reckoner.setZone (r : Reckoner) (k : Car) (j : Nat) (z : Zone) : Reckoner :=
  { r with zones := r.zones.set k ((r.zones.get k).set j z) }

/-- The speed of car k in its own track direction: v1 = v, v2 = −v (R37). -/
def carSpeed (k : Car) (v : Int) : Int :=
  match k with
  | .one => v
  | .two => -v

/-- The position of car k at a checkpoint edge captured now (R37). -/
def State.edgePosition (s : State) (k : Car) : Int :=
  let smp := s.reck.sample
  let dt : Int := ((s.captureTimer - smp.time).toNat : Int)
  smp.p.get k + truncDiv (carSpeed k smp.v * dt) 1000000

/-- Whether a position lies in the zone of a checkpoint (R38). -/
def Checkpoint.near (c : Checkpoint) (p : Int) : Bool := decide (mag (c.pos - p) ≤ c.tol)

/-- Whether car k is a candidate for an edge of a checkpoint (R39). -/
def State.isCandidate (s : State) (c : Checkpoint) (k : Car) : Bool :=
  c.branch.seenBy k && c.near (s.edgePosition k)

/-- An edge of checkpoint slot j that is matched to car k (R39). -/
def State.matchEdge (s : State) (c : Checkpoint) (j : Nat) (k : Car) : State :=
  if s.reck.zone k j = .withinMatched then s
  else
    let old := s.reck.c.get k
    let new :=
      clamp (old + (c.pos - s.edgePosition k)) (-s.settings.cMax) s.settings.cMax
    let s1 := s.modReck fun r =>
      { r.setZone k j .withinMatched with c := r.c.set k new, miss := r.miss.set k 0 }
    if new = old then s1 else s1.reformTarget

/-- The fault of an edge that is not matched (R40). -/
def State.edgeFault (s : State) (c : Checkpoint) : Report :=
  match c.branch.car with
  | some k =>
    if c.near (s.edgePosition k.other) then { kind := .wrongBranch }
    else { kind := .checkpointMismatch, cars := CarSet.only k }
  | none => { kind := .checkpointMismatch, cars := ⟨true, true⟩ }

/-- A checkpoint edge while REFERENCED (R37, R39, R40).  It is ignored until a sample has been
published since the referencing event. -/
def State.matchedEdge (s : State) (c : Checkpoint) (j : Nat) : State :=
  if s.reck.sample.referenced then
    match s.isCandidate c .one, s.isCandidate c .two with
    | true, false => s.matchEdge c j .one
    | false, true => s.matchEdge c j .two
    | _, _ => s.report (s.edgeFault c)
  else s

/-- A branch checkpoint edge while UNREFERENCED (R35, R36); an ANY checkpoint's edge is ignored. -/
def State.branchReference (s : State) (c : Checkpoint) (j : Nat) : State :=
  match c.branch.car with
  | none => s
  | some k =>
    let e := s.stretchAtTrack k c.pos
    let x := match k with
      | .one => c.pos + e
      | .two => s.lr - c.pos - e
    s.reference x (Zone.none.set k ((Zone.none.get k).set j .withinMatched))

/-- A rising edge of the detector input of checkpoint slot j (R35, R37). -/
def State.checkpointEdge (s : State) (c : Checkpoint) (j : Nat) : State :=
  if s.reck.referenced then s.matchedEdge c j else s.branchReference c j

/-- A rising edge of an input: the checkpoint in force that names it takes the edge (R37). -/
def State.inputEdge (s : State) (n : Fin 32) : State :=
  match s.store.active.checkpoints.zipIdx.find? fun ci => ci.1.input = n with
  | some (c, j) => s.checkpointEdge c j
  | none => s

/-- Whether a car moving with a signed speed has passed a checkpoint between two positions (R41). -/
def Checkpoint.passed (c : Checkpoint) (speed before after : Int) : Bool :=
  if speed > 0 then decide (before ≤ c.pos + c.tol) && decide (c.pos + c.tol < after)
  else if speed < 0 then decide (c.pos - c.tol ≤ before) && decide (after < c.pos - c.tol)
  else false

/-- A miss of car k: CHECKPOINT_MISSED, the counter, and CHECKPOINT_LOST from two on (R41). -/
def State.missPass (s : State) (k : Car) : State :=
  let n := min 255 (s.reck.miss.get k + 1)
  let s1 := s.modReck fun r => { r with miss := r.miss.set k n }
  let missed : Report := { kind := .checkpointMissed, cars := CarSet.only k }
  let lost : Report := { kind := .checkpointLost, cars := CarSet.only k }
  s1.takeReports (if 2 ≤ n then [missed, lost] else [missed])

/-- The pass test of car k for one checkpoint, at a sample to be published (R41). -/
def State.passTest (new : Sample) (k : Car) (s : State) (cj : Checkpoint × Nat) : State :=
  if cj.1.branch.seenBy k
      && cj.1.passed (carSpeed k new.v) (s.reck.sample.p.get k) (new.p.get k)
      && decide (s.reck.zone k cj.2 ≠ .withinMatched) then
    s.missPass k
  else s

/-- The pass tests of both cars (R41). -/
def State.passTests (s : State) (new : Sample) : State :=
  if s.reck.hasPrev then
    let cs := s.store.active.checkpoints.zipIdx
    cs.foldl (State.passTest new .two) (cs.foldl (State.passTest new .one) s)
  else s

/-- The zone record after a sample at which a car is in a zone or not (R38). -/
def Zone.update (z : Zone) (within : Bool) : Zone :=
  if within then (match z with
    | .outside => .withinUnmatched
    | z => z)
  else .outside

/-- The zone records of car k at a position; a checkpoint the car does not see keeps OUTSIDE (R38). -/
def OperatingSet.zonesAt (o : OperatingSet) (k : Car) (p : Int) (zones : List Zone) : List Zone :=
  zones.zipIdx.map fun (z, j) =>
    match o.checkpoints[j]? with
    | some c => if c.branch.seenBy k then z.update (c.near p) else .outside
    | none => .outside

/-- The update of the zone records at a sample to be published (R38). -/
def State.updateZones (s : State) (new : Sample) : State :=
  let o := s.store.active
  s.modReck fun r =>
    { r with
      zones := ⟨o.zonesAt .one new.p.one r.zones.one, o.zonesAt .two new.p.two r.zones.two⟩ }

/-- The positional overtravel condition at rope coordinate x (R42). -/
def State.beyondTerminals (s : State) (x : Int) : Bool :=
  decide (x < s.starOf .lower - s.settings.overtravel)
    || decide (s.starOf .upper + s.settings.overtravel < x)

/-- The overtravel test of a sample to be published (R42). -/
def State.testOvertravel (s : State) (new : Sample) : State :=
  s.modReck fun r => { r with overtravel := s.beyondTerminals new.s }

/-- Both channel speeds at a sample expiry (R21, R22). -/
def State.formSpeeds (s : State) : State :=
  { s with
    chan :=
      ⟨s.chan.main.sample (s.scale .main) s.captureTimer,
       s.chan.alt.sample (s.scale .alt) s.captureTimer⟩ }

/-- The sample formed from the channels as they stand (R25, steps 1 and 2). -/
def State.draftSample (s : State) : Sample :=
  let x := s.rope
  { s := x
    v := (s.chan.get s.reck.source).speed
    p := ⟨s.reckoned .one x s.reck.c.one, s.reckoned .two x s.reck.c.two⟩
    e := ⟨s.stretch .one x, s.stretch .two x⟩
    c := s.reck.c
    source := s.reck.source
    referenced := s.reck.referenced
    time := s.captureTimer }

/-- Step 4 of a sample: pass tests, zone updates and the overtravel test, while REFERENCED (R25). -/
def State.sampleTests (s : State) (new : Sample) : State :=
  if new.referenced then ((s.passTests new).updateZones new).testOvertravel new else s

/-- Step 5: the sample is published with the active source as it stands (R25). -/
def State.publish (s : State) (new : Sample) : State :=
  s.modReck fun r =>
    { r with sample := { new with source := r.source }, hasPrev := new.referenced }

end Sys2Proof.Machine
end

