-- ==== Sys2Proof/Machine/Arbiter.lean ====
section
/-!
DEFINITION. The Request Arbiter: eligibility and the choice of the next movement (R61 to R65), the
taking of a run request (R57, R59, R60), merging (R66, R67), removals (R68, R70 to R72), and the last
direction (R76).
-/

namespace Sys2Proof.Machine

/-- Changes the Run Record of the run in progress. -/
def State.modRecord (s : State) (f : RunRecord → RunRecord) : State :=
  s.modRun fun rc => { rc with record := rc.record.map f }

/-! ## Arbitration -/

/-- Whether an entry is eligible for arbitration (R62). -/
def State.eligible (s : State) (e : Entry) : Bool :=
  !e.left && !(decide (e.id.stop = .loop) && !s.linkUp .loopStation)

/-- The oldest eligible entry (R62). -/
def State.oldestEligible (s : State) : Option Entry := s.queue.find? s.eligible

/-- The conditions of arbitration (R61). -/
def State.mayArbitrate (s : State) : Bool :=
  decide (s.run.state = .parked) && !s.stopDemanded && !s.store.editOpen && !s.store.busy
    && s.linkUp .console && decide (s.store.commissioning = .locked) && s.reck.referenced

/-- Whether the cars stand at a stop: |s − s*| ≤ W, with s from the latest published sample (R62). -/
def State.standAt (s : State) (x : Stop) : Bool :=
  decide (mag (s.reck.sample.s - s.starOf x) ≤ s.window x)

/-- The direction from the latest published s toward a target (R62). -/
def State.dirToward (s : State) (x : Stop) : Dir :=
  if s.starOf x > s.reck.sample.s then .up else .down

/-- Whether the loop lies ahead by more than its window in a direction (R63, R64). -/
def State.loopAhead (s : State) (dir : Dir) : Bool :=
  decide ((s.starOf .loop - s.reck.sample.s) * dir.sign > s.window .loop)

/-- Whether a run chosen for E in a direction is diverted to LOOP (R63). -/
def State.diverts (s : State) (e : Entry) (dir : Dir) : Bool :=
  decide (e.id.kind = .stop) && decide (e.id.stop ≠ .loop)
    && s.queue.any (fun f => decide (f.id.stop = .loop) && s.eligible f)
    && s.linkUp .loopStation && s.loopAhead dir
    && decide ((s.starOf e.id.stop - s.starOf .loop) * dir.sign > 0)

/-- The result of an arbitration (R65). -/
inductive Choice where
  | nothing
  | dwell (x : Stop)
  | run (x : Stop) (mode : Mode) (dir : Dir)
  deriving DecidableEq, Repr

/-- The mode of a run for an entry (R62). -/
def CallKind.mode : CallKind → Mode
  | .stop => .stop
  | .through => .through

/-- The choice for the oldest eligible entry (R62, R63). -/
def State.chooseFor (s : State) (e : Entry) : Choice :=
  if s.standAt e.id.stop then .dwell e.id.stop
  else
    let dir := s.dirToward e.id.stop
    if s.diverts e dir then .run .loop .stop dir else .run e.id.stop e.id.kind.mode dir

/-- The terminal in a direction (R64). -/
def Dir.terminal : Dir → Stop
  | .up => .upper
  | .down => .lower

/-- The choice of a shuttle run (R64). -/
def State.chooseShuttle (s : State) : Choice :=
  let dir := s.shuttle.lastDir.opposite
  if s.shuttle.policy = .always ∧ s.linkUp .loopStation = true ∧ s.loopAhead dir = true then
    .run .loop .shuttle (s.dirToward .loop)
  else
    let x := dir.terminal
    if s.standAt x then .dwell x else .run x .shuttle (s.dirToward x)

/-- The Arbiter's choice (R62 to R64). -/
def State.choose (s : State) : Choice :=
  match s.oldestEligible with
  | some e => s.chooseFor e
  | none => if s.shuttle.active then s.chooseShuttle else .nothing

/-- The served-entry list of a chosen stop: every queued entry for it, in queue order (R65). -/
def State.servedFor (s : State) (x : Stop) : List Ident := (s.entriesFor x).map (·.id)

/-! ## Taking a run request -/

/-- The union of two sides (R60). -/
def Side.join : Side → Side → Side
  | .east, .east => .east
  | .west, .west => .west
  | _, _ => .both

/-- Whether the queue holds an entry of an identity (R58). -/
def State.queued (s : State) (id : Ident) : Bool := s.queue.any fun e => decide (e.id = id)

/-- Whether a run of mode STOP, THROUGH or SHUTTLE is in progress and not yet in DWELL (R59, R69). -/
def State.servingRun (s : State) : Option RunRecord :=
  match s.run.record with
  | some r => if r.mode = .creep then none else some r
  | none => none

/-- Adds an identity to the served-entry list when a run is in progress for its stop (R59). -/
def State.addServed (s : State) (id : Ident) : State :=
  match s.servingRun with
  | some r =>
    if r.target = some id.stop then s.modRecord fun r => { r with served := r.served ++ [id] } else s
  | none => s

/-- Takes a candidate into the queue: joined into the entry of its identity, or added at the tail
(R59, R60). -/
def State.takeCall (s : State) (id : Ident) (side : Side) : State :=
  if s.queued id then
    { s with
      queue := s.queue.map fun e => if e.id = id then { e with side := e.side.join side } else e }
  else ({ s with queue := s.queue ++ [Entry.mk id side false] } : State).addServed id

/-- The checks of a run request before its fields are looked at (R57, checks 1 to 5). -/
def State.runRequestRefusal (s : State) : Option ReplyCode :=
  if s.store.commissioning ≠ .locked then some .notCommissioned
  else if !s.reck.referenced then some .notReferenced
  else if s.store.editOpen then some .editOpen
  else if s.store.busy then some .busy
  else if s.run.state.isFault then some .faultActive
  else none

/-- Whether a request for LOOP is tested for merging (R66). -/
def State.mergeTested (s : State) (x : Stop) : Bool :=
  match s.run.record with
  | some r =>
    decide (x = .loop) && decide (s.run.state = .running)
      && (decide (r.mode = .stop) || decide (r.mode = .shuttle))
      && (decide (r.target = some .lower) || decide (r.target = some .upper))
      && s.linkUp .loopStation
      && decide ((s.starOf .loop - s.reck.sample.s) * r.dir.sign > 0)
  | none => false

/-- Whether the merge test is passed (R66). -/
def State.mergePasses (s : State) : Bool :=
  let dL := mag (s.starOf .loop - s.reck.sample.s)
  decide (s.absV ≤ isqrt (2 * s.aRun * max 0 (dL - s.settings.m)))

/-- The retargeting of the run to LOOP at a merge (R67, steps 2 to 5; R107, R136). -/
def State.merge (s : State) : State :=
  let s1 := s.modRun fun rc =>
    { rc with
      record := rc.record.map fun r =>
        { r with target := some .loop, served := s.servedFor .loop, merged := true }
      approaching := true }
  let s2 := s1.formTarget .loop
  s2.retarget s2.reck.sample.p s2.reck.sample.s

/-- The REPLY of a request not merged (R59). -/
def State.takenReply (s : State) (joined : Bool) : ReplyCode :=
  if joined ∨ s.run.state = .parked then .accepted else .queued

/-- Marks this event as an arbitration event when the state is PARKED (R61). -/
def State.wantArbitration (s : State) : State :=
  s.modRun fun r => { r with arbitrate := r.arbitrate || decide (r.state = .parked) }

/-- Whether a candidate finds the queue full: 6 entries, and none of its identity (R57, check 7). -/
def State.queueFull (s : State) (id : Ident) : Bool := !s.queued id && decide (6 ≤ s.queue.length)

/-- A run request that passes its checks, with its REPLY (R59, R66, R67). -/
def State.takeRunRequest (s : State) (id : Ident) (side : Side) : State × Reply :=
  if s.mergeTested id.stop && s.mergePasses then
    ((s.takeCall id side).merge, ⟨.merged, 0, []⟩)
  else ((s.takeCall id side).wantArbitration, ⟨s.takenReply (s.queued id), 0, []⟩)

/-! ## Removals -/

/-- Removes from the queue the entries a test names, and from the served-entry list with them (R68). -/
def State.removeEntries (s : State) (gone : Entry → Bool) : State :=
  let ids := (s.queue.filter gone).map (·.id)
  ({ s with queue := s.queue.filter fun e => !gone e } : State).modRecord fun r =>
    { r with served := r.served.filter fun id => !ids.contains id }

/-- Removes the entries of a served-entry list from the queue (R70, R72). -/
def State.removeServed (s : State) (served : List Ident) : State :=
  { s with queue := s.queue.filter fun e => !served.contains e.id }

/-- Whether a side names a car whose stop error lies within the window (R71). -/
def Side.within (side : Side) (err : PerCar Int) (window : Int) : Bool :=
  let in1 := decide (mag err.one ≤ window)
  let in2 := decide (mag err.two ≤ window)
  match side with
  | .east => in1
  | .west => in2
  | .both => in1 || in2

/-- The removal of served entries at DWELL entry at LOOP (R71): entries not removed are marked. -/
def State.removeServedLoop (s : State) (served : List Ident) (err : PerCar Int) : State :=
  let w := s.window .loop
  let up := s.linkUp .loopStation
  { s with
    queue := (s.queue.filter fun e => !(served.contains e.id && up && e.side.within err w)).map
      fun e => if served.contains e.id then { e with left := true } else e }

/-- The Arbiter's part at DWELL entry at a stop (R70, R71, R76). -/
def State.serveDwell (s : State) (x : Stop) (served : List Ident) (err : PerCar Int) : State :=
  match x with
  | .loop => s.removeServedLoop served err
  | .lower =>
    { s.removeServed served with shuttle := { s.shuttle with lastDir := .down } }
  | .upper =>
    { s.removeServed served with shuttle := { s.shuttle with lastDir := .up } }

/-- The Arbiter clears every left-at-stop mark, at an entry into PREPARING (R65). -/
def State.clearMarks (s : State) : State :=
  { s with queue := s.queue.map fun e => { e with left := false } }

end Sys2Proof.Machine
end

