-- ==== Sys2Proof/Machine/RunControl.lean ====
section
/-!
DEFINITION. The Run Controller: standstill (R81), PREPARING and its preconditions (R82 to R85),
RELEASING and RUNNING (R84, R87 to R89), SETTLING (R91, R92), DWELL (R93 to R95), the releases (R94,
R135), creep runs (R99 to R101), the end of a fault stop (R104, R105), and the round in which an
event settles.
-/

namespace Sys2Proof.Machine

/-! ## Standstill -/

/-- The bound of standstill, 20 mm/s (R81). -/
def standstillSpeed : Int := 20

/-- Standstill and its timer at a published sample (R81).  A timer that expired at this instant
before the sample takes effect with the sample. -/
def State.sampleStandstill (s : State) : State :=
  if s.absV ≤ standstillSpeed then
    if s.run.standstillHeld then
      s.modRun fun r => { r with standstillHeld := false, standstill := true }
    else
      s.modRun fun r =>
        { r with
          standstillDue := (match r.standstillDue with
            | some d => some d
            | none => some (s.time + ms 500)) }
  else
    s.modRun fun r =>
      { r with standstillDue := none, standstillHeld := false, standstill := false }

/-- Expiry of the standstill timer (R81): it takes effect with the sample of its instant. -/
def State.expireStandstill (s : State) : State :=
  if s.sampleAwaited then
    s.modRun fun r => { r with standstillDue := none, standstillHeld := true }
  else
    s.modRun fun r =>
      { r with
        standstillDue := none
        standstill := r.standstill || decide (s.absV ≤ standstillSpeed) }

/-! ## PREPARING -/

/-- The origin stop of a new Run Record (R79). -/
def State.originStop (s : State) : Option Stop :=
  if s.reck.referenced then
    leastBy (fun x => mag (s.reck.sample.s - s.starOf x)) (Stop.all.filter s.standAt)
  else none

/-- Entry into PREPARING with a mode, a direction, a target stop and a served-entry list (R65, R80,
R82, R100, R133). -/
def State.enterPreparing (s : State) (mode : Mode) (dir : Dir) (target : Option Stop)
    (served : List Ident) : State :=
  let number := s.run.counter + 1
  let record : RunRecord :=
    { number := number, mode := mode, dir := dir, origin := s.originStop, target := target
      sStar := none, frozen := none, served := served, merged := false }
  let s1 := (s.clearMarks.enterState .preparing).modRun fun r =>
    { r with
      counter := number
      record := some record
      prepareDue := some (s.time + ms (s.settings.prepareS.toNat * 1000))
      creepDue := if mode = .creep then some (s.time + ms 300) else none }
  match target with
  | some x => s1.formTarget x
  | none => s1

/-- Precondition 1 (R83). -/
def State.doorsReady (s : State) : Bool :=
  s.linkUp .car1 && s.linkUp .car2
    && decide (s.recs.car.one.doors = .closedLocked) && decide (s.recs.car.two.doors = .closedLocked)

/-- Precondition 2 (R83). -/
def State.loopReady (s : State) : Bool :=
  if s.linkUp .loopStation then
    decide (s.recs.loop.east = .closedLocked) && decide (s.recs.loop.west = .closedLocked)
  else s.reck.referenced && !s.standsInLoop .one && !s.standsInLoop .two

/-- Precondition 3 (R83). -/
def State.driveReady (s : State) : Bool := s.linkUp .drive && s.recs.drive.ready && s.out 13

/-- Precondition 4 (R83). -/
def State.brakesClosed (s : State) : Bool := !s.serviceOpen && !s.emergencyOpen

/-- The preconditions of PREPARING (R83). -/
def State.prepared (s : State) : Bool :=
  s.doorsReady && s.loopReady && s.driveReady && s.brakesClosed && !s.stopDemanded

/-- The Run Controller orders ENABLE and then RELEASE and the state becomes RELEASING (R84, R97). -/
def State.enterReleasing (s : State) : State := ((s.enterState .releasing).enableDrive).release

/-- PREPARING exit for a Run Record (R84). -/
def State.exitPreparing (s : State) (r : RunRecord) : State :=
  let frozen : PerCar (Option Int) := ⟨s.recs.car.one.load, s.recs.car.two.load⟩
  let s1 := s.modRun fun rc =>
    { rc with prepareDue := none, record := some { r with frozen := some frozen } }
  let s2 := match r.target with
    | some x => s1.formTarget x
    | none => s1
  (s2.createContext r).enterReleasing

/-! ## RUNNING, FINAL_APPROACH and SETTLING -/

/-- Entry into RUNNING from RELEASING (R87, R136). -/
def State.enterRunning (s : State) : State :=
  let toLoop := match s.run.record with
    | some r => decide (r.target = some .loop)
    | none => false
  (s.enterState .running).modRun fun r => { r with approaching := r.approaching || toLoop }

/-- Entry into SETTLING with a flavour; the creep hold timer is stopped (R91). -/
def State.enterSettling (s : State) (f : Flavour) : State :=
  (s.enterState .settling (some f)).modRun fun r => { r with creepDue := none }

/-- What RUNNING or FINAL_APPROACH does at a published sample with a distance to target (R88, R89). -/
def State.testDistance (s : State) : State :=
  match s.distance with
  | none => s
  | some d =>
    match s.run.state with
    | .running =>
      if d ≤ s.settings.dF then s.enterSettling .stop
      else if s.prof.vTgt.getD 0 < s.settings.vCreep then s.enterState .finalApproach
      else s
    | .finalApproach => if d ≤ s.settings.dF then s.enterSettling .stop else s
    | _ => s

/-- The end of the suspend ramp: SUSPENDING goes to SETTLING at the sample at which the reference
reaches 0 (R96). -/
def State.endSuspendRamp (s : State) : State :=
  if s.run.state = .suspending ∧ s.prof.vRef = 0 then s.enterSettling .suspend else s

/-! ## DWELL -/

/-- The stop errors at a stop, from the latest published sample (R92, R93). -/
def State.stopErrors (s : State) (x : Stop) : PerCar Int :=
  let r := s.store.active.stopRec x
  ⟨s.reck.sample.p.one - r.mark1, s.reck.sample.p.two - r.mark2⟩

/-- The dwell minimum at this event, in s (R93). -/
def State.dwellMinimum (s : State) : Int :=
  if s.shuttle.active then max s.settings.dwellS s.shuttle.dwell else s.settings.dwellS

/-- The cars outside the window of a stop (R93). -/
def outsideWindow (err : PerCar Int) (window : Int) : CarSet :=
  ⟨decide (mag err.one > window), decide (mag err.two > window)⟩

/-- DWELL entry at a stop with a served-entry list (R93). -/
def State.enterDwell (s : State) (x : Stop) (served : List Ident) : State :=
  let err := s.stopErrors x
  let outside := outsideWindow err (s.window x)
  let s1 := s.serveDwell x served err
  let s2 := s1.modRun fun r =>
    { r with
      dwellStop := some x
      dwellErr := err
      dwellDue := some (s.time + ms (s.dwellMinimum.toNat * 1000))
      record := none }
  let s3 := s2.enterState .dwell
  if outside.any then s3.report { kind := .stopOutsideWindow, cars := outside } else s3

/-- Car k's door release (R94). -/
def State.doorRelease (s : State) (k : Car) : Bool :=
  match s.run.dwellStop with
  | some x =>
    decide (s.run.state = .dwell) && decide (mag (s.run.dwellErr.get k) ≤ s.window x)
      && s.linkUp k.party && (decide (x ≠ .loop) || s.linkUp .loopStation)
  | none => false

/-- The gate release of the side of car k (R135). -/
def State.gateRelease (s : State) (k : Car) : Bool :=
  decide (s.run.dwellStop = some .loop) && s.doorRelease k

/-- Whether DWELL ends (R95). -/
def State.dwellOver (s : State) : Bool :=
  decide (s.run.dwellDue = none)
    && decide (s.recs.car.one.doors = .closedLocked) && decide (s.recs.car.two.doors = .closedLocked)
    && (decide (s.run.dwellStop ≠ some .loop) || !s.linkUp .loopStation
        || (decide (s.recs.loop.east = .closedLocked) && decide (s.recs.loop.west = .closedLocked)))

/-! ## PARKED -/

/-- Entry into PARKED: the Run Record is discarded, the run's timers stop, and the entry is an
arbitration event (R61, R85, R95, R98, R101). -/
def State.enterParked (s : State) : State :=
  (s.enterState .parked).modRun fun r =>
    { r with
      record := none
      prepareDue := none
      dwellDue := none
      creepDue := none
      arbitrate := true }

/-- The return from FAULT_HELD: the rail brake demand is cleared (R105, R150). -/
def State.leaveFaultHeld (s : State) : State :=
  (s.modBrk fun u => { u with rail := false }).enterParked

/-- The Run Controller takes the result of an arbitration (R65). -/
def State.takeChoice (s : State) : Choice → State
  | .nothing => s
  | .dwell x => s.enterDwell x (s.servedFor x)
  | .run x mode dir => s.enterPreparing mode dir (some x) (s.servedFor x)

/-- Arbitration at an arbitration event (R61, R65). -/
def State.arbitrate (s : State) : State :=
  let s1 := s.modRun fun r => { r with arbitrate := false }
  if s1.mayArbitrate then s1.takeChoice s1.choose else s1

/-! ## The ends of SETTLING and of a fault stop -/

/-- Whether both cars stand within the window of a stop (R92). -/
def State.bothWithin (s : State) (x : Stop) : Bool :=
  let err := s.stopErrors x
  decide (mag err.one ≤ s.window x) && decide (mag err.two ≤ s.window x)

/-- The end of SETTLING: DISABLE, and the next state by the flavour (R92). -/
def State.endSettling (s : State) : State :=
  let s1 := s.disableDrive
  match s1.run.flavour, s1.run.record with
  | some .suspend, _ => s1.enterState .suspended
  | some .stop, some r =>
    match r.target with
    | some x => s1.enterDwell x r.served
    | none => s1.enterParked
  | some .creepLapse, some r =>
    match r.target with
    | some x => if s1.bothWithin x then s1.enterDwell x r.served else s1.enterParked
    | none => s1.enterParked
  | _, _ => s1.enterParked

/-- Whether both brakes stand in a state. -/
def State.bothBrakes (s : State) (b : BrakeState) : Bool :=
  decide (s.brk.service.state = b) && decide (s.brk.emergency.state = b)

/-- Whether both brakes' applications are over (R104, R151). -/
def State.brakesDone (s : State) : Bool := s.brk.service.done && s.brk.emergency.done

/-- SETTLING at an event: APPLY once standstill and a zero reference hold (R91), and its end once
both brakes stand APPLIED (R92). -/
def State.runSettling (s : State) : State :=
  let s1 := if s.run.standstill ∧ s.prof.vRef = 0 then s.apply .both else s
  if s1.bothBrakes .applied then s1.endSettling else s1

/-- Whether the class of a FAULT_STOPPING applies the brakes at this event (R152, R153). -/
def State.classApplies (s : State) : Bool :=
  match s.run.stopClass with
  | some .serviceStop => s.run.standstill
  | some .quickStop => decide (s.absV ≤ s.settings.vCreep)
  | _ => false

/-- The apply of a stop class; the quick-stop timer is stopped (R152, R153). -/
def State.classApply (s : State) : State :=
  (s.apply .both).modBrk fun u => { u with quickDue := none }

/-- FAULT_STOPPING at an event: the apply of the class, the DISABLE once both applications are over
(R151), and FAULT_HELD once the rope stands and DRIVE ENABLE is off (R104). -/
def State.runFaultStopping (s : State) : State :=
  let s1 := if s.classApplies then s.classApply else s
  let s2 := if s1.brakesDone ∧ s1.brk.enable = true then s1.disableDrive else s1
  if s2.run.standstill = true ∧ s2.brakesDone = true ∧ s2.brk.enable = false then
    s2.enterState .faultHeld
  else s2

/-- One move of the Run Controller at an event, by the state that stands. -/
def State.runStep (s : State) : State :=
  match s.run.state with
  | .parked => if s.run.arbitrate then s.arbitrate else s
  | .preparing =>
    match s.run.record with
    | some r => if s.prepared then s.exitPreparing r else s
    | none => s
  | .releasing => if s.bothBrakes .released then s.enterRunning else s
  | .running | .finalApproach | .suspending | .suspended => s
  | .settling => s.runSettling
  | .dwell => if s.dwellOver then s.enterParked else s
  | .faultStopping => s.runFaultStopping
  | .faultHeld => if s.stopDemanded then s else s.leaveFaultHeld

/-! ## Settling an event -/

/-- The blocks take the slot outputs that have changed since `old` (R49, R50): the wind flag, and the
brake feedback with its reports.  Where slot 3 or 4 falls in RELEASED and slot 13 falls at the same event,
the loss of release is reported and reacted to first (R49, R163): its class is SERVICE_STOP or higher, so
the run state is FAULT_STOPPING, the condition of DRIVE_FAULT (R160) does not rise, and it is not latched.
The order is the model's choice (DESIGN CHOICE, notes/assumptions/46.md). -/
def State.takeOutputs (s : State) (old : List Slot) : State :=
  let lost := s.lostRelease old
  let s1 := (s.modProf fun p => { p with wind := s.out 9 }).brakeFeedback old
  s1.takeReports (lostReports lost)

/-- The Filter Bank takes the source levels as they stand, and the blocks take the outputs (R47,
R49). -/
def State.bankStep (s : State) : State := s.takeSources.takeOutputs s.slots

/-- The Reckoner, the Filter Bank and the Fault Handler at an event: return, bank, failover, terminal
referencing, and the conditions. -/
def State.detect (s : State) : State :=
  s.returnToMain.bankStep.failover.terminalReference.refresh

/-- One round: what the blocks detect, then one move of the Run Controller. -/
def State.round (s : State) : State := s.detect.runStep

/-- A number of rounds. -/
def State.rounds : Nat → State → State
  | 0, s => s
  | n + 1, s => State.rounds n s.round

/-- An event settles: its consequences in every block, in rounds.  Eight rounds are more than any
event takes (notes/assumptions/5.md). -/
def State.settle (s : State) : State := s.rounds 8

end Sys2Proof.Machine
end

