-- ==== Sys2Proof/Machine/Operands.lean ====
section
/-!
DEFINITION. The operands of the frames: the type codes, the payload codes and the outcome codes of
10.7, the parties' permissions (R179), and the reading of a payload's fields.
-/

namespace Sys2Proof.Machine

/-! ## Types -/

/-- The message and request types (10.7, Type codes). -/
inductive MsgType where
  | run | cancel | suspend | resume | creep | shuttleStart | shuttleEnd | ackFault | callLoop
  | openEdit | writeItem | readItem | commitEdit | abandonEdit | writeConstant | readConstant
  | lockConstants | carState | loopState | driveState | status | carCommand | loopCommand
  | driveReference | reply
  deriving DecidableEq, Repr

/-- The TYPE code (10.7). -/
def MsgType.code : MsgType → Byte
  | .run => 0x10
  | .cancel => 0x11
  | .suspend => 0x12
  | .resume => 0x13
  | .creep => 0x14
  | .shuttleStart => 0x15
  | .shuttleEnd => 0x16
  | .ackFault => 0x17
  | .callLoop => 0x18
  | .openEdit => 0x20
  | .writeItem => 0x21
  | .readItem => 0x22
  | .commitEdit => 0x23
  | .abandonEdit => 0x24
  | .writeConstant => 0x28
  | .readConstant => 0x29
  | .lockConstants => 0x2A
  | .carState => 0x40
  | .loopState => 0x41
  | .driveState => 0x42
  | .status => 0x60
  | .carCommand => 0x61
  | .loopCommand => 0x62
  | .driveReference => 0x63
  | .reply => 0x6F

/-- Every type, in the order of the table. -/
def MsgType.all : List MsgType :=
  [.run, .cancel, .suspend, .resume, .creep, .shuttleStart, .shuttleEnd, .ackFault, .callLoop,
   .openEdit, .writeItem, .readItem, .commitEdit, .abandonEdit, .writeConstant, .readConstant,
   .lockConstants, .carState, .loopState, .driveState, .status, .carCommand, .loopCommand,
   .driveReference, .reply]

/-- The type of a TYPE code, if it is a known code. -/
def MsgType.ofCode (b : Byte) : Option MsgType := MsgType.all.find? fun t => decide (t.code = b)

/-- Whether a type is a state message of a party. -/
def MsgType.isState : MsgType → Bool
  | .carState | .loopState | .driveState => true
  | _ => false

/-- Whether a type is a message that the part itself sends. -/
def MsgType.fromPart : MsgType → Bool
  | .status | .carCommand | .loopCommand | .driveReference | .reply => true
  | _ => false

/-- Whether a party may send a type (R179, the party table). -/
def MsgType.permitted (t : MsgType) (p : Party) : Bool :=
  match p with
  | .console => !t.isState && !t.fromPart && decide (t ≠ .callLoop)
  | .car1 | .car2 => decide (t = .callLoop) || decide (t = .carState)
  | .loopStation => decide (t = .callLoop) || decide (t = .loopState)
  | .drive => decide (t = .driveState)

/-! ## Payload fields -/

/-- The byte at a place in a payload, as a number. -/
def byteAt (pl : List Byte) (i : Nat) : Nat := (pl.getD i 0).toNat

/-- The bytes from a place on, at most n of them. -/
def slice (pl : List Byte) (i n : Nat) : List Byte := (pl.drop i).take n

/-- An unsigned field of n bytes at a place in a payload. -/
def fieldAt (pl : List Byte) (i n : Nat) : Nat := getUnsigned (slice pl i n)

/-- A signed four-byte field at a place in a payload. -/
def signedAt (pl : List Byte) (i : Nat) : Int := getSigned32 (slice pl i 4)

/-- The TAG of a request: its first payload byte, or 0 without a payload (R180). -/
def tagOf (pl : List Byte) : Byte := pl.getD 0 0

/-! ## Codes used in payloads (10.7) -/

/-- The code of a stop. -/
def Stop.code : Stop → Nat
  | .lower => 1
  | .loop => 2
  | .upper => 3

/-- The code of a stop, 0 for none. -/
def stopCode (x : Option Stop) : Nat := (x.map Stop.code).getD 0

/-- The stop of a code. -/
def Stop.ofCode : Nat → Option Stop
  | 1 => some .lower
  | 2 => some .loop
  | 3 => some .upper
  | _ => none

/-- The code of a run state. -/
def RunState.code : RunState → Nat
  | .parked => 0
  | .preparing => 1
  | .releasing => 2
  | .running => 3
  | .finalApproach => 4
  | .settling => 5
  | .dwell => 6
  | .suspending => 7
  | .suspended => 8
  | .faultStopping => 9
  | .faultHeld => 10

/-- The code of a mode. -/
def Mode.code : Mode → Nat
  | .stop => 1
  | .through => 2
  | .creep => 3
  | .shuttle => 4

/-- The code of a direction. -/
def Dir.code : Dir → Nat
  | .up => 1
  | .down => 2

/-- The direction of a code. -/
def Dir.ofCode : Nat → Option Dir
  | 1 => some .up
  | 2 => some .down
  | _ => none

/-- The code of a queue entry's source. -/
def Caller.code : Caller → Nat
  | .console => 1
  | .car1 => 2
  | .car2 => 3
  | .loopStation => 4

/-- The code of a queue entry's kind. -/
def CallKind.code : CallKind → Nat
  | .stop => 1
  | .through => 2

/-- The kind of a code. -/
def CallKind.ofCode : Nat → Option CallKind
  | 1 => some .stop
  | 2 => some .through
  | _ => none

/-- The code of a side. -/
def Side.code : Side → Nat
  | .east => 1
  | .west => 2
  | .both => 3

/-- The side of a code. -/
def Side.ofCode : Nat → Option Side
  | 1 => some .east
  | 2 => some .west
  | 3 => some .both
  | _ => none

/-- The loop policy of a code. -/
def LoopPolicy.ofCode : Nat → Option LoopPolicy
  | 1 => some .always
  | 2 => some .onCall
  | _ => none

/-- The code of a car's doors. -/
def Doors.code : Doors → Nat
  | .closedLocked => 0
  | .closed => 1
  | .opened => 2
  | .unknown => 3

/-- The doors of a reported code: any code but 0 and 1 is taken as OPEN (R184). -/
def Doors.ofReport : Nat → Doors
  | 0 => .closedLocked
  | 1 => .closed
  | _ => .opened

/-- The code of a gate. -/
def Gate.code : Gate → Nat
  | .closedLocked => 0
  | .opened => 1
  | .unknown => 2

/-- The gate of a reported code: any code but 0 is taken as OPEN (R185). -/
def Gate.ofReport : Nat → Gate
  | 0 => .closedLocked
  | _ => .opened

/-- The code of the commissioning state. -/
def Commissioning.code : Commissioning → Nat
  | .unset => 0
  | .set => 1
  | .locked => 2

/-- The code of a feedback source. -/
def sourceCode : Channel → Nat
  | .main => 0
  | .alt => 1

/-- The code of an outcome (10.7, Outcome codes). -/
def ReplyCode.code : ReplyCode → Nat
  | .accepted => 0x00
  | .merged => 0x01
  | .queued => 0x02
  | .clamped => 0x03
  | .held => 0x04
  | .busy => 0x10
  | .queueFull => 0x11
  | .wrongState => 0x12
  | .tooLate => 0x13
  | .badValue => 0x14
  | .badType => 0x15
  | .notPermitted => 0x16
  | .locked => 0x17
  | .notCommissioned => 0x18
  | .notReferenced => 0x19
  | .faultActive => 0x1A
  | .editOpen => 0x1B
  | .noEdit => 0x1C
  | .invalidTable => 0x1D
  | .notReported => 0x1E
  | .conditionPresent => 0x1F
  | .moving => 0x20

/-! ## Lengths (10.7, Request payloads) -/

/-- The item classes (10.7). -/
inductive ItemClass where
  | segment | checkpoint | stop | setting | filter | class | segmentCount | checkpointCount
  deriving DecidableEq, Repr

/-- The item class of a code (10.7). -/
def ItemClass.ofCode : Nat → Option ItemClass
  | 1 => some .segment
  | 2 => some .checkpoint
  | 3 => some .stop
  | 4 => some .setting
  | 5 => some .filter
  | 6 => some .class
  | 7 => some .segmentCount
  | 8 => some .checkpointCount
  | _ => none

/-- The value length of an item class (10.7). -/
def ItemClass.valueLen : ItemClass → Nat
  | .segment => 8
  | .checkpoint => 8
  | .stop => 10
  | .setting => 4
  | .filter => 7
  | .class => 1
  | .segmentCount => 1
  | .checkpointCount => 1

/-- Whether a payload has the length that a request type, and for WRITE_ITEM its item class, require
(10.7); a WRITE_ITEM whose item class is unknown has none. -/
def MsgType.lengthOk (t : MsgType) (pl : List Byte) : Bool :=
  match t with
  | .run | .cancel => decide (pl.length = 3)
  | .creep | .ackFault | .callLoop | .readConstant => decide (pl.length = 2)
  | .shuttleStart | .readItem => decide (pl.length = 4)
  | .writeConstant => decide (pl.length = 6)
  | .writeItem =>
    match ItemClass.ofCode (byteAt pl 1) with
    | some c => decide (2 ≤ pl.length) && decide (pl.length = 4 + c.valueLen)
    | none => false
  | .carState => decide (pl.length = 4)
  | .loopState | .driveState => decide (pl.length = 2)
  | _ => decide (pl.length = 1)

end Sys2Proof.Machine
end

