-- ==== Sys2Proof/Machine/Links.lean ====
section
/-!
DEFINITION. The Link Unit's lines: the receiver (R177), the transmitter (R181), link supervision
(R182, R183), and the messages of the part (R156, R180, R186, R187).
-/

namespace Sys2Proof.Machine

/-! ## Transmitter -/

/-- Puts the frames of a message in the place of the first waiting frame of a type; the other waiting
frames of that type leave (R181; notes/assumptions/10.md). -/
def replaceWaiting (t : Byte) (new : List Frame) : List Frame → List Frame
  | [] => []
  | f :: rest =>
    if f.type = t then new ++ rest.filter fun g => decide (g.type ≠ t)
    else f :: replaceWaiting t new rest

/-- A link's transmitter is handed the frames of one message of a type (R181).  An idle transmitter
sends the first at once.  A periodic message takes the place of an earlier one of its type that still
waits; a REPLY never does. -/
def Link.hand (l : Link) (t : MsgType) (fs : List Frame) : Link :=
  match l.sending with
  | none => { l with sending := fs.head?, waiting := l.waiting ++ fs.tail }
  | some _ =>
    if t ≠ .reply ∧ l.waiting.any (fun f => decide (f.type = t.code)) = true then
      { l with waiting := replaceWaiting t.code fs l.waiting }
    else { l with waiting := l.waiting ++ fs }

/-- The transmitter finishes a frame and takes the next waiting one (R181). -/
def Link.transmitted (l : Link) : Link :=
  match l.sending with
  | none => l
  | some _ => { l with sending := l.waiting.head?, waiting := l.waiting.tail }

/-- The number of REPLY frames that wait (R181). -/
def Link.repliesWaiting (l : Link) : Nat :=
  (l.waiting.filter fun f => decide (f.type = MsgType.reply.code)).length

/-- Whether the receiver discards every character, 32 REPLY frames waiting (R181). -/
def Link.blocked (l : Link) : Bool := decide (32 ≤ l.repliesWaiting)

/-- The frames of one message are handed to the transmitter of a party's link. -/
def State.send (s : State) (p : Party) (t : MsgType) (payloads : List (List Byte)) : State :=
  s.modLink p fun l => l.hand t (payloads.map fun pl => ⟨t.code, pl⟩)

/-! ## Receiver -/

/-- The receiver goes to HUNT (R177). -/
def Link.hunt (l : Link) : Link := { l with rx := .hunt }

/-- The receiver of a party's link comes to a receive state (R177). -/
def State.setRx (s : State) (p : Party) (rx : Receiver) : State := s.modLink p fun l => { l with rx := rx }

/-- What a receiver comes to when the characters after the SYNC are these (R177): a LEN above 192
discards the frame at that character, and at the second CRC character the frame is complete and stands
with the CRC it carried. -/
def Receiver.follow : List Byte → Receiver × Option (Frame × BitVec 16)
  | type :: len :: rest =>
    let n := len.toNat
    if 192 < n then (.hunt, none)
    else if rest.length < n + 2 then (.inFrame (type :: len :: rest), none)
    else (.hunt, some (⟨type, rest.take n⟩, rest.getD n 0 ++ rest.getD (n + 1) 0))
  | taken => (.inFrame taken, none)

/-- A receiver takes one character (R177): in HUNT only a 0x5A is not ignored, and in IN_FRAME the
character has the meaning of its position. -/
def Receiver.take (b : Byte) : Receiver → Receiver × Option (Frame × BitVec 16)
  | .hunt => (if b = 0x5A then .inFrame [] else .hunt, none)
  | .inFrame taken => Receiver.follow (taken ++ [b])

/-! ## Party records at a loss (R184, R185) -/

/-- A car record after reset and while its link is LOST. -/
def CarRecord.lost : CarRecord := ⟨.unknown, false, none⟩

/-- The loop record after reset and while its link is LOST. -/
def LoopRecord.lost : LoopRecord := ⟨.unknown, .unknown⟩

/-- The drive record after reset and while its link is LOST. -/
def DriveRecord.lost : DriveRecord := ⟨false, 0⟩

/-- The record of a party takes its LOST values. -/
def Records.lose (r : Records) : Party → Records
  | .console => r
  | .drive => { r with drive := DriveRecord.lost }
  | .car1 => { r with car := r.car.set .one CarRecord.lost }
  | .car2 => { r with car := r.car.set .two CarRecord.lost }
  | .loopStation => { r with loop := LoopRecord.lost }

/-- The console link's loss discards an open edit's staging copy (R199). -/
def Store.consoleLost (st : Store) : Store := { st with staging := none }

/-- A link goes LOST (R183). -/
def State.loseLink (s : State) (p : Party) : State :=
  let s1 := s.modLink p fun l => { l with up := false, due := none }
  { s1 with
    recs := s1.recs.lose p
    store := if p = .console then s1.store.consoleLost else s1.store }

/-- The supervision timeout of a link, in µs. -/
def State.timeout (s : State) (p : Party) : Nat := ms (s.settings.timeoutMs p).toNat

/-- The supervision timer of a link restarts (R182). -/
def State.restartTimer (s : State) (p : Party) : State :=
  s.modLink p fun l => { l with due := some (s.time + s.timeout p) }

/-- All five supervision timers restart (R182, R198). -/
def State.restartTimers (s : State) : State :=
  [Party.console, .drive, .car1, .car2, .loopStation].foldl State.restartTimer s

/-- Whether a link's return to UP is an arbitration event (R61, R183). -/
def returnArbitrates : Party → Bool
  | .console | .loopStation => true
  | _ => false

/-- A LOST link returns to UP, and the event settles before the frame is taken (R182, R183). -/
def State.returnLink (s : State) (p : Party) : State :=
  let s1 := s.modLink p fun l => { l with up := true }
  (if returnArbitrates p then s1.wantArbitration else s1).settle

/-- A good frame counts as traffic on its link (R182). -/
def State.traffic (s : State) (p : Party) : State :=
  let s1 := s.restartTimer p
  if s.linkUp p then s1 else s1.returnLink p

/-! ## REPLY (R180) -/

/-- The payload of a REPLY. -/
def replyPayload (type tag : Byte) (r : Reply) : List Byte :=
  [type, tag, BitVec.ofNat 8 r.code.code, BitVec.ofNat 8 r.detail] ++ r.value

/-- A REPLY to a request on the link it came on. -/
def State.reply (s : State) (p : Party) (type : Byte) (pl : List Byte) (r : Reply) : State :=
  s.send p .reply [replyPayload type (tagOf pl) r]

/-! ## CAR_COMMAND and LOOP_COMMAND (R187) -/

/-- The next stop of a CAR_COMMAND (R78). -/
def State.nextStop (s : State) : Option Stop :=
  match s.run.record with
  | some r => r.target
  | none => if s.run.state = .dwell then s.run.dwellStop else none

/-- The saturation of a stop error to two bytes (R187). -/
def saturateErr (x : Int) : Int := clamp x (-32768) 32767

/-- The trigger fields of a CAR_COMMAND (R187). -/
structure CarTrigger where
  state : RunState
  next : Option Stop
  door : Bool
  err : Int
  errValid : Bool
  rail : Bool
  deriving DecidableEq, Repr

/-- The trigger fields of car k's CAR_COMMAND as they stand. -/
def State.carTrigger (s : State) (k : Car) : CarTrigger where
  state := s.run.state
  next := s.nextStop
  door := s.doorRelease k
  err := if s.run.state = .dwell then saturateErr (s.run.dwellErr.get k) else 0
  errValid := decide (s.run.state = .dwell)
  rail := s.brk.rail

/-- The payload of a CAR_COMMAND for trigger fields and a speed (10.7). -/
def CarTrigger.payload (t : CarTrigger) (speed : Int) : List Byte :=
  [BitVec.ofNat 8 t.state.code, BitVec.ofNat 8 (stopCode t.next)] ++ putBool t.door
    ++ putU16 speed.toNat ++ putI16 t.err ++ putBool t.errValid ++ putBool t.rail

/-- The trigger fields of a LOOP_COMMAND (R187). -/
structure LoopTrigger where
  east : Bool
  west : Bool
  approaching : Bool
  deriving DecidableEq, Repr

/-- The trigger fields of the LOOP_COMMAND as they stand. -/
def State.loopTrigger (s : State) : LoopTrigger :=
  ⟨s.gateRelease .one, s.gateRelease .two, s.run.approaching⟩

/-- The payload of a LOOP_COMMAND (10.7). -/
def LoopTrigger.payload (t : LoopTrigger) : List Byte :=
  putBool t.east ++ putBool t.west ++ putBool t.approaching

/-- The period of STATUS, CAR_COMMAND and LOOP_COMMAND, 100 ms (R186, R187). -/
def period : Nat := ms 100

/-- A CAR_COMMAND is formed for car k and sent; its period timer restarts (R187). -/
def State.sendCar (s : State) (k : Car) : State :=
  let s1 := s.send k.party .carCommand [(s.carTrigger k).payload s.absV]
  { s1 with periods := { s1.periods with car := s1.periods.car.set k (s.time + period) } }

/-- A LOOP_COMMAND is formed and sent; its period timer restarts (R187). -/
def State.sendLoop (s : State) : State :=
  let s1 := s.send .loopStation .loopCommand [s.loopTrigger.payload]
  { s1 with periods := { s1.periods with loop := s.time + period } }

/-- Sends the CAR_COMMAND of car k if one of its trigger fields has changed since `before`, or the run
state has changed in between (R78, R187). -/
def State.announceCar (before : State) (k : Car) (s : State) : State :=
  if s.run.changed = true ∨ before.carTrigger k ≠ s.carTrigger k then s.sendCar k else s

/-- Sends the LOOP_COMMAND if one of its trigger fields has changed since `before`, or the run state
has changed (R78, R187; notes/assumptions/9.md). -/
def State.announceLoop (before s : State) : State :=
  if s.run.changed = true ∨ before.loopTrigger ≠ s.loopTrigger then s.sendLoop else s

/-- The end of an event: the command messages that it triggers are sent, and the event's own marks
are cleared. -/
def State.announce (before s : State) : State :=
  let s1 := State.announceLoop before (State.announceCar before .two (State.announceCar before .one s))
  s1.modRun fun r => { r with changed := false, arbitrate := false }

/-- An event, `dt` µs after the one before it: time passes, the blocks take it, and the messages it
triggers are sent.  A part that is held in reset takes none (notes/assumptions/18.md). -/
def State.event (s : State) (dt : Nat) (body : State → State) : State :=
  if s.held then s else State.announce (s.advance dt) (body (s.advance dt))

/-! ## DRIVE_REFERENCE (R156) -/

/-- The payload of a DRIVE_REFERENCE (10.7). -/
def drivePayload (enable : Bool) (speed : Int) : List Byte := putBool enable ++ putI16 speed

/-- A DRIVE_REFERENCE is formed and sent (R156). -/
def State.sendDrive (s : State) : State :=
  let enable := s.brk.enable
  let speed := if enable then s.prof.vRef else 0
  (s.modBrk fun u => { u with refEnable := enable, refSpeed := speed }).send .drive .driveReference
    [drivePayload enable speed]

/-! ## STATUS (R186) -/

/-- The five bytes 3 to 7 of part 1: the Run Record, or 0 while none exists. -/
def runBytes : Option RunRecord → List Byte
  | some r =>
    [BitVec.ofNat 8 r.mode.code, BitVec.ofNat 8 r.dir.code, BitVec.ofNat 8 (stopCode r.origin),
      BitVec.ofNat 8 (stopCode r.target)] ++ putBool r.merged
  | none => [0, 0, 0, 0, 0]

/-- The link states, one bit each (byte 35 of part 1). -/
def State.linkBits (s : State) : Byte :=
  let bit := fun p i => if s.linkUp p then 2 ^ i else 0
  BitVec.ofNat 8
    (bit .console 0 + bit .car1 1 + bit .car2 2 + bit .loopStation 3 + bit .drive 4)

/-- The four bytes of a car record in part 1. -/
def CarRecord.bytes (r : CarRecord) : List Byte :=
  [BitVec.ofNat 8 r.doors.code] ++ putBool r.emergency ++
    putU16 (match r.load with
      | some x => x.toNat
      | none => 0xFFFF)

/-- The saturation of a predicted stop error to ±32,767. -/
def saturatePerr (x : Int) : Int := clamp x (-32767) 32767

/-- Bytes 50 to 60 of part 1: the held target, or 0 while it is absent. -/
def targetBytes : Option HeldTarget → List Byte
  | some t =>
    [if t.shared then 1 else 2, BitVec.ofNat 8 t.stop.code,
      (match t.favoured with
        | none => 0
        | some .one => 1
        | some .two => 2)]
      ++ putI32 t.sStar ++ putI16 (saturatePerr t.perr.one) ++ putI16 (saturatePerr t.perr.two)
  | none => List.replicate 11 0

/-- The four bytes of a queue entry. -/
def Entry.bytes (e : Entry) : List Byte :=
  [BitVec.ofNat 8 e.id.caller.code, BitVec.ofNat 8 e.id.kind.code, BitVec.ofNat 8 e.id.stop.code,
    BitVec.ofNat 8 e.side.code]

/-- Whether slot i is carried in a STATUS: its change flag is set and its report mask is SET (R51). -/
def State.carried (s : State) (i : Nat) : Bool :=
  (s.slots.getD i Slot.afterReset).flag && (s.store.active.filter i).report

/-- The slots that a STATUS carries (R51), in the order of their numbers (DESIGN CHOICE, unsafe;
notes/assumptions/43.md). -/
def State.carriedSlots (s : State) : List Nat := (List.range 14).filter s.carried

/-- The class of a FAULT_STOPPING in progress, 0xFF otherwise (byte 2 of part 1). -/
def State.classByte (s : State) : Byte :=
  match s.run.state, s.run.stopClass with
  | .faultStopping, some c => BitVec.ofNat 8 c.rank
  | _, _ => 0xFF

/-- Bytes 10 to 31 of part 1: the latest published sample and the Profile Unit's values. -/
def State.sampleBytes (s : State) : List Byte :=
  let x := s.reck.sample
  putI32 x.s ++ putI16 x.v ++ putU16 s.prof.vP.toNat ++ putI16 s.prof.vRef
    ++ putU16 s.prof.vLocal.toNat ++ putI32 x.p.one ++ putI32 x.p.two
    ++ [BitVec.ofNat 8 (sourceCode x.source)] ++ putBool x.referenced

/-- Bytes 32 to 49 of part 1: store, links, records, rail brake demand and shuttle. -/
def State.recordBytes (s : State) : List Byte :=
  [BitVec.ofNat 8 s.store.commissioning.code] ++ putBool s.store.busy ++ putBool s.store.editOpen
    ++ [s.linkBits] ++ putBool s.recs.drive.ready ++ [s.recs.drive.faultCode]
    ++ s.recs.car.one.bytes ++ s.recs.car.two.bytes
    ++ [BitVec.ofNat 8 s.recs.loop.east.code, BitVec.ofNat 8 s.recs.loop.west.code]
    ++ putBool s.brk.rail ++ putBool s.shuttle.active

/-- STATUS part 1 (10.7). -/
def State.statusPart1 (s : State) : List Byte :=
  [1, BitVec.ofNat 8 s.run.state.code, s.classByte] ++ runBytes s.run.record
    ++ putU16 s.run.counter.toNat ++ s.sampleBytes ++ s.recordBytes ++ targetBytes s.target
    ++ [BitVec.ofNat 8 s.queue.length] ++ s.queue.flatMap Entry.bytes
    ++ [BitVec.ofNat 8 s.carriedSlots.length]
    ++ s.carriedSlots.flatMap fun i => BitVec.ofNat 8 i :: putBool (s.out i)

/-- The seven bytes of a fault entry (10.7). -/
def FaultEntry.bytes (e : FaultEntry) : List Byte :=
  let bit := fun (b : Bool) i => if b then 2 ^ i else 0
  [BitVec.ofNat 8 (e.kind.code + 32 * e.cls.rank), BitVec.ofNat 8 e.count,
    BitVec.ofNat 8
      (bit e.isPresent 0 + bit e.cars.one 1 + bit e.cars.two 2 + bit e.brakes.service 3
        + bit e.brakes.emergency 4)]
    ++ putW32 e.firstTime

/-- STATUS part 2 (10.7). -/
def State.statusPart2 (s : State) : List Byte :=
  [2, BitVec.ofNat 8 s.faults.length] ++ s.faults.flatMap FaultEntry.bytes

/-- The effects of sending a STATUS: the change flags of the slots carried are cleared (R51), and
while the console link is UP every entry is marked reported (R167). -/
def State.markReported (s : State) : State :=
  { s with
    slots := s.slots.zipIdx.map fun (sl, i) =>
      if s.carried i then { sl with flag := false } else sl
    faults :=
      if s.linkUp .console then s.faults.map fun e => { e with reported := true } else s.faults }

/-- A STATUS is formed and handed to the console link's transmitter, part 1 first (R186). -/
def State.sendStatus (s : State) : State :=
  (s.markReported).send .console .status [s.statusPart1, s.statusPart2]

end Sys2Proof.Machine
end

