-- ==== Sys2Proof/Machine/Items.lean ====
section
/-!
DEFINITION. The items of the Operating Set: how WRITE_ITEM writes them (R172, R195) and how READ_ITEM
gives their values (R196), in the layouts of 10.7.
-/

namespace Sys2Proof.Machine

/-! ## Enumerated fields -/

/-- The kind of a segment of a code (10.7). -/
def SegKind.ofCode : Nat → Option SegKind
  | 0 => some .plain
  | 1 => some .tunnel
  | 2 => some .bridge
  | 3 => some .loop
  | 4 => some .platform
  | _ => none

/-- The code of a segment's kind. -/
def SegKind.code : SegKind → Nat
  | .plain => 0
  | .tunnel => 1
  | .bridge => 2
  | .loop => 3
  | .platform => 4

/-- The branch of a code. -/
def Branch.ofCode : Nat → Option Branch
  | 0 => some .any
  | 1 => some .east
  | 2 => some .west
  | _ => none

/-- The code of a branch. -/
def Branch.code : Branch → Nat
  | .any => 0
  | .east => 1
  | .west => 2

/-- A number below a bound, as a member of the bounded type. -/
def finOf (n bound : Nat) : Option (Fin bound) := if h : n < bound then some ⟨n, h⟩ else none

/-- The slot source of a code (R45). -/
def SlotSource.ofCode (n : Nat) : Option SlotSource :=
  match n with
  | 32 => some .mainStall
  | 33 => some .altStall
  | 34 => some .disagree
  | 62 => some .alwaysFalse
  | 63 => some .alwaysTrue
  | _ => (finOf n 32).map .input

/-- The code of a slot source (R45). -/
def SlotSource.code : SlotSource → Nat
  | .input n => n.val
  | .mainStall => 32
  | .altStall => 33
  | .disagree => 34
  | .alwaysFalse => 62
  | .alwaysTrue => 63

/-- The level of a code 0 or 1. -/
def boolOf : Nat → Option Bool
  | 0 => some false
  | 1 => some true
  | _ => none

/-! ## Writing -/

/-- The outcome of a write that is not refused: CLAMPED if any field was clamped (R195). -/
def writeCode (clamped : Bool) : ReplyCode := if clamped then .clamped else .accepted

/-- A numeric field clamped into its range (R195). -/
def fitted (x lo hi : Int) : Int × Bool := (clamp x lo hi, decide (clamp x lo hi ≠ x))

/-- Writes a SEGMENT item from its eight value bytes. -/
def OperatingSet.writeSegment (o : OperatingSet) (i : Nat) (v : List Byte) :
    Option (OperatingSet × ReplyCode) :=
  if i < 48 then
    match finOf (byteAt v 6) 4, SegKind.ofCode (byteAt v 7) with
    | some g, some k =>
      let start := fitted (fieldAt v 0 4) 0 4000000
      let limit := fitted (fieldAt v 4 2) 300 12000
      some ({ o with segs := o.segs.set i ⟨start.1, limit.1, g, k⟩ },
        writeCode (start.2 || limit.2))
    | _, _ => none
  else none

/-- Writes a CHECKPOINT item from its eight value bytes. -/
def OperatingSet.writeCheckpoint (o : OperatingSet) (i : Nat) (v : List Byte) :
    Option (OperatingSet × ReplyCode) :=
  if i < 24 then
    match Branch.ofCode (byteAt v 4), finOf (byteAt v 5) 32 with
    | some b, some n =>
      let pos := fitted (fieldAt v 0 4) 0 4000000
      let tol := fitted (fieldAt v 6 2) 50 2000
      some ({ o with cps := o.cps.set i ⟨pos.1, b, n, tol.1⟩ }, writeCode (pos.2 || tol.2))
    | _, _ => none
  else none

/-- Replaces the stop record of a stop. -/
def OperatingSet.putStop (o : OperatingSet) (x : Stop) (r : StopRecord) : OperatingSet :=
  match x with
  | .lower => { o with lower := r }
  | .loop => { o with loop := r }
  | .upper => { o with upper := r }

/-- Writes a STOP item from its ten value bytes. -/
def OperatingSet.writeStop (o : OperatingSet) (i : Nat) (v : List Byte) :
    Option (OperatingSet × ReplyCode) :=
  match Stop.ofCode i with
  | some x =>
    let m1 := fitted (fieldAt v 0 4) 0 4000000
    let m2 := fitted (fieldAt v 4 4) 0 4000000
    let w := fitted (fieldAt v 8 2) 20 500
    some (o.putStop x ⟨m1.1, m2.1, w.1⟩, writeCode (m1.2 || m2.2 || w.2))
  | none => none

/-- Writes a SETTING item from its four value bytes, a signed number (R193). -/
def OperatingSet.writeSetting (o : OperatingSet) (i : Nat) (v : List Byte) :
    Option (OperatingSet × ReplyCode) :=
  match settingRange i with
  | some (lo, hi) =>
    let x := fitted (signedAt v 0) lo hi
    some ({ o with settings := o.settings.put i x.1 }, writeCode x.2)
  | none => none

/-- Writes a FILTER item from its seven value bytes. -/
def OperatingSet.writeFilter (o : OperatingSet) (i : Nat) (v : List Byte) :
    Option (OperatingSet × ReplyCode) :=
  if i < 14 then
    match SlotSource.ofCode (byteAt v 0), boolOf (byteAt v 1), boolOf (byteAt v 6) with
    | some src, some en, some rep =>
      some ({ o with filters := o.filters.set i ⟨src, en, fieldAt v 2 2, fieldAt v 4 2, rep⟩ },
        .accepted)
    | _, _, _ => none
  else none

/-- Writes a CLASS item: below the floor, or of a kind whose floor is fixed, the previous class is
held (R172).  A value that is no class is BAD_VALUE for a kind whose floor is fixed too (DESIGN CHOICE,
unsafe; notes/assumptions/40.md). -/
def OperatingSet.writeClass (o : OperatingSet) (i : Nat) (v : List Byte) :
    Option (OperatingSet × ReplyCode) :=
  match FaultKind.ofCode i, StopClass.ofCode (byteAt v 0) with
  | some k, some c =>
    match k.floor with
    | some f =>
      if c.rank < f.rank then some (o, .held)
      else some ({ o with classes := o.classes.set (i - 1) c }, .accepted)
    | none => some (o, .held)
  | _, _ => none

/-- Writes a SEGMENT_COUNT item. -/
def OperatingSet.writeSegCount (o : OperatingSet) (i : Nat) (v : List Byte) :
    Option (OperatingSet × ReplyCode) :=
  if i = 0 then
    let n := fitted (byteAt v 0) 1 48
    some ({ o with segCount := n.1.toNat }, writeCode n.2)
  else none

/-- Writes a CHECKPOINT_COUNT item. -/
def OperatingSet.writeCpCount (o : OperatingSet) (i : Nat) (v : List Byte) :
    Option (OperatingSet × ReplyCode) :=
  if i = 0 then
    let n := fitted (byteAt v 0) 0 24
    some ({ o with cpCount := n.1.toNat }, writeCode n.2)
  else none

/-- Writes an item of a class with an index from its value bytes, or `none` for a write that is
refused BAD_VALUE (R172, R195). -/
def OperatingSet.writeItem (o : OperatingSet) (c : ItemClass) (i : Nat) (v : List Byte) :
    Option (OperatingSet × ReplyCode) :=
  match c with
  | .segment => o.writeSegment i v
  | .checkpoint => o.writeCheckpoint i v
  | .stop => o.writeStop i v
  | .setting => o.writeSetting i v
  | .filter => o.writeFilter i v
  | .class => o.writeClass i v
  | .segmentCount => o.writeSegCount i v
  | .checkpointCount => o.writeCpCount i v

/-! ## Reading -/

/-- The value bytes of a segment. -/
def Segment.bytes (g : Segment) : List Byte :=
  putI32 g.start ++ putU16 g.limit.toNat ++ [BitVec.ofNat 8 g.grad.val, BitVec.ofNat 8 g.kind.code]

/-- The value bytes of a checkpoint. -/
def Checkpoint.bytes (c : Checkpoint) : List Byte :=
  putI32 c.pos ++ [BitVec.ofNat 8 c.branch.code, BitVec.ofNat 8 c.input.val] ++ putU16 c.tol.toNat

/-- The value bytes of a stop record. -/
def StopRecord.bytes (r : StopRecord) : List Byte :=
  putI32 r.mark1 ++ putI32 r.mark2 ++ putU16 r.window.toNat

/-- The value bytes of a filter configuration. -/
def FilterConfig.bytes (f : FilterConfig) : List Byte :=
  [BitVec.ofNat 8 f.source.code] ++ putBool f.enabled ++ putU16 f.setMs ++ putU16 f.clearMs
    ++ putBool f.report

/-- The values of an item in the WRITE_ITEM layout, or `none` for an index outside its class's range
(R196). -/
def OperatingSet.readItem (o : OperatingSet) (c : ItemClass) (i : Nat) : Option (List Byte) :=
  match c with
  | .segment => if i < 48 then some (o.segs.getD i Segment.factory).bytes else none
  | .checkpoint => if i < 24 then some (o.cps.getD i (Checkpoint.factory i)).bytes else none
  | .stop => (Stop.ofCode i).map fun x => (o.stopRec x).bytes
  | .setting => (settingRange i).map fun _ => putI32 (o.settings.get i)
  | .filter => if i < 14 then some (o.filter i).bytes else none
  | .class => (FaultKind.ofCode i).map fun k => [BitVec.ofNat 8 (o.classOf k).rank]
  | .segmentCount => if i = 0 then some [BitVec.ofNat 8 o.segCount] else none
  | .checkpointCount => if i = 0 then some [BitVec.ofNat 8 o.cpCount] else none

end Sys2Proof.Machine
end

