-- ==== Sys2Proof/Machine/Requests.lean ====
section
/-!
DEFINITION. What each request does when its owning block takes it, and the outcome it answers: run
and service requests (R56, R57, R68, R74, R75), the Run Controller's requests (R96 to R99),
acknowledgement (R168, R169), and the store's requests (R189 to R199).
-/

namespace Sys2Proof.Machine

/-- A refusal changes no state. -/
def State.refuse (s : State) (c : ReplyCode) : State × Reply := (s, { code := c })

/-- An acceptance with no more to tell. -/
def State.accept (s : State) : State × Reply := (s, { code := .accepted })

/-- An event that is an arbitration event while PARKED, taken to its end (R61). -/
def State.arbitrating (s : State) : State :=
  if s.run.state = .parked then s.wantArbitration.settle else s

/-! ## Request Arbiter -/

/-- The candidate of a RUN request, if its fields are valid (R56). -/
def runCandidate (pl : List Byte) : Option (Ident × Side) :=
  match CallKind.ofCode (byteAt pl 1), Stop.ofCode (byteAt pl 2) with
  | some .through, some .loop => none
  | some k, some x => some (⟨.console, k, x⟩, .both)
  | _, _ => none

/-- The candidate of a CALL_LOOP from a party, if its fields are valid (R56). -/
def callCandidate (p : Party) (pl : List Byte) : Option (Ident × Side) :=
  match p with
  | .car1 => some (⟨.car1, .stop, .loop⟩, .east)
  | .car2 => some (⟨.car2, .stop, .loop⟩, .west)
  | .loopStation => (Side.ofCode (byteAt pl 1)).map fun y => (⟨.loopStation, .stop, .loop⟩, y)
  | _ => none

/-- A run request with its candidate (R57, R59).  In PARKED it is an arbitration event. -/
def State.answerRun (s : State) (cand : Option (Ident × Side)) : State × Reply :=
  match s.runRequestRefusal, cand with
  | some c, _ => s.refuse c
  | none, none => s.refuse .badValue
  | none, some (id, side) =>
    if s.queueFull id then s.refuse .queueFull
    else
      let (s1, r) := s.takeRunRequest id side
      (if s.run.state = .parked then s1.settle else s1, r)

/-- CANCEL with scope ENTRY (R68). -/
def State.answerCancelEntry (s : State) (x : Option Stop) : State × Reply :=
  match x with
  | some x =>
    ((s.removeEntries fun e => decide (e.id.caller = .console) && decide (e.id.stop = x)).arbitrating,
      { code := .accepted })
  | none => s.refuse .badValue

/-- CANCEL with scope ALL (R68). -/
def State.answerCancelAll (s : State) : State × Reply :=
  ((s.removeEntries fun e => decide (e.id.caller = .console)).arbitrating, { code := .accepted })

/-- Sets the Shuttle Record's active flag, policy and dwell (R74). -/
def State.startShuttle (s : State) (policy : LoopPolicy) (dwell : Int) : State :=
  { s with shuttle := { s.shuttle with active := true, policy := policy, dwell := dwell } }

/-- SHUTTLE_START (R74).  Its checks before the policy are those of a run request. -/
def State.answerShuttleStart (s : State) (pl : List Byte) : State × Reply :=
  match s.runRequestRefusal, LoopPolicy.ofCode (byteAt pl 1) with
  | some c, _ => s.refuse c
  | none, none => s.refuse .badValue
  | none, some policy =>
    let dwell : Int := (fieldAt pl 2 2 : Int)
    ((s.startShuttle policy (min dwell 600)).arbitrating,
      { code := if dwell > 600 then .clamped else .accepted })

/-- SHUTTLE_END (R75). -/
def State.answerShuttleEnd (s : State) : State × Reply :=
  if s.shuttle.active then
    ({ s with shuttle := { s.shuttle with active := false } }, { code := .accepted })
  else s.refuse .wrongState

/-! ## Run Controller -/

/-- CANCEL with scope RUN (R98). -/
def State.answerCancelRun (s : State) : State × Reply :=
  if s.run.state = .suspended then s.enterParked.settle.accept else s.refuse .wrongState

/-- SUSPEND (R96). -/
def State.answerSuspend (s : State) : State × Reply :=
  match s.run.state with
  | .running =>
    match s.servingRun with
    | some _ => (s.enterState .suspending).accept
    | none => s.refuse .wrongState
  | .finalApproach => s.refuse .tooLate
  | _ => s.refuse .wrongState

/-- RESUME (R97). -/
def State.answerResume (s : State) : State × Reply :=
  if s.run.state = .suspended then s.enterReleasing.settle.accept else s.refuse .wrongState

/-- The checks of a CREEP before its direction (R99, checks 1 to 4). -/
def State.creepRefusal (s : State) : Option ReplyCode :=
  if s.store.commissioning = .unset then some .notCommissioned
  else if s.store.editOpen then some .editOpen
  else if s.store.busy then some .busy
  else if s.run.state.isFault then some .faultActive
  else none

/-- Whether a run state is one in which the creep hold timer of a creep run runs (R100). -/
def RunState.holdsCreep : RunState → Bool
  | .preparing | .releasing | .running | .finalApproach => true
  | _ => false

/-- Starts a creep run from PARKED (R82, R99). -/
def State.startCreep (s : State) (dir : Dir) (target : Option Stop) : State × Reply :=
  (s.enterPreparing .creep dir target []).settle.accept

/-- CREEP in PARKED (R99). -/
def State.creepParked (s : State) (dir : Dir) : State × Reply :=
  if s.queue ≠ [] ∨ s.shuttle.active = true then s.refuse .wrongState
  else if s.reck.referenced then
    match s.creepTarget dir s.reck.sample.s with
    | some x => s.startCreep dir (some x)
    | none => s.refuse .wrongState
  else s.startCreep dir none

/-- CREEP during a creep run whose hold has not lapsed (R99). -/
def State.creepRefresh (s : State) (r : RunRecord) (dir : Dir) : State × Reply :=
  if r.dir = dir then (s.modRun fun rc => { rc with creepDue := some (s.time + ms 300) }).accept
  else s.refuse .wrongState

/-- CREEP with a valid direction (R99, check 6). -/
def State.creepAllowed (s : State) (dir : Dir) : State × Reply :=
  match s.run.record with
  | some r =>
    if r.mode = .creep ∧ s.run.state.holdsCreep = true then s.creepRefresh r dir
    else s.refuse .wrongState
  | none => if s.run.state = .parked then s.creepParked dir else s.refuse .wrongState

/-- CREEP (R99). -/
def State.answerCreep (s : State) (pl : List Byte) : State × Reply :=
  match s.creepRefusal, Dir.ofCode (byteAt pl 1) with
  | some c, _ => s.refuse c
  | none, none => s.refuse .badValue
  | none, some dir => s.creepAllowed dir

/-! ## Fault Handler -/

/-- Whether a run state admits acknowledgement (R168, check 4). -/
def RunState.admitsAck : RunState → Bool
  | .parked | .dwell | .suspended | .faultHeld => true
  | _ => false

/-- ACK_FAULT naming a kind (R168). -/
def State.ackKind (s : State) (k : FaultKind) : State × Reply :=
  match s.fault k with
  | none => s.refuse .badValue
  | some e =>
    if !e.reported then s.refuse .notReported
    else if e.isPresent then s.refuse .conditionPresent
    else if !s.run.state.admitsAck then s.refuse .moving
    else
      ({ s with faults := s.faults.filter fun f => decide (f.kind ≠ k) } : State).settle.accept

/-- Whether an entry is eligible for acknowledgement in a run state (R169). -/
def FaultEntry.eligible (e : FaultEntry) (st : RunState) : Bool :=
  e.reported && !e.isPresent && st.admitsAck

/-- ACK_FAULT ALL (R169). -/
def State.ackAll (s : State) : State × Reply :=
  let gone := s.faults.filter fun e => e.eligible s.run.state
  (({ s with faults := s.faults.filter fun e => !e.eligible s.run.state } : State).settle,
    { code := .accepted, detail := gone.length })

/-- ACK_FAULT, by its kind byte (R168, R169). -/
def State.answerAck (s : State) (pl : List Byte) : State × Reply :=
  if byteAt pl 1 = 0 then s.ackAll
  else
    match FaultKind.ofCode (byteAt pl 1) with
    | some k => s.ackKind k
    | none => s.refuse .badValue

/-! ## Configuration Store -/

/-- Changes the Configuration Store. -/
def State.modStore (s : State) (f : Store → Store) : State := { s with store := f s.store }

/-- Whether the run state is PARKED or FAULT_HELD. -/
def RunState.admitsStore : RunState → Bool
  | .parked | .faultHeld => true
  | _ => false

/-- OPEN_EDIT (R194). -/
def State.answerOpenEdit (s : State) : State × Reply :=
  if s.store.busy then s.refuse .busy
  else if s.store.editOpen then s.refuse .editOpen
  else if !s.run.state.admitsStore then s.refuse .wrongState
  else if s.queue ≠ [] ∨ s.shuttle.active = true then s.refuse .wrongState
  else (s.modStore fun st => { st with staging := some st.active }).accept

/-- WRITE_ITEM (R195). -/
def State.answerWriteItem (s : State) (pl : List Byte) : State × Reply :=
  match s.store.staging with
  | none => s.refuse .noEdit
  | some o =>
    match ItemClass.ofCode (byteAt pl 1) with
    | none => s.refuse .badValue
    | some c =>
      match o.writeItem c (fieldAt pl 2 2) (pl.drop 4) with
      | some (o', code) => (s.modStore fun st => { st with staging := some o' }, { code := code })
      | none => s.refuse .badValue

/-- READ_ITEM (R196). -/
def State.answerReadItem (s : State) (pl : List Byte) : State × Reply :=
  if s.store.busy then s.refuse .busy
  else
    match ItemClass.ofCode (byteAt pl 1) with
    | none => s.refuse .badValue
    | some c =>
      match (s.store.staging.getD s.store.active).readItem c (fieldAt pl 2 2) with
      | some v => (s, { code := .accepted, value := v })
      | none => s.refuse .badValue

/-- The start of a commit cycle: the edit closes and the validity mark is erased (R197;
notes/assumptions/11.md). -/
def Store.startCommit (st : Store) (o : OperatingSet) : Store :=
  { st with staging := none, mark := false, cycle := .commit o }

/-- COMMIT_EDIT (R197). -/
def State.answerCommit (s : State) : State × Reply :=
  if s.store.busy then s.refuse .busy
  else
    match s.store.staging with
    | none => s.refuse .noEdit
    | some o =>
      match o.validate s.store.consts.lr with
      | some item => (s, { code := .invalidTable, detail := item })
      | none => (s.modStore fun st => st.startCommit o).accept

/-- ABANDON_EDIT (R199). -/
def State.answerAbandon (s : State) : State × Reply :=
  if s.store.editOpen then
    ((s.modStore fun st => { st with staging := none }).arbitrating, { code := .accepted })
  else s.refuse .noEdit

/-- WRITE_CONSTANT (R189). -/
def State.answerWriteConstant (s : State) (pl : List Byte) : State × Reply :=
  if s.store.busy then s.refuse .busy
  else if s.store.lock then s.refuse .locked
  else if s.store.editOpen then s.refuse .editOpen
  else if !s.run.state.admitsStore then s.refuse .wrongState
  else
    match ConstName.ofCode (byteAt pl 1) with
    | none => s.refuse .badValue
    | some n =>
      let x := fitted (signedAt pl 2) n.range.1 n.range.2
      (s.modStore fun st => { st with cycle := .constant n x.1 }, { code := writeCode x.2 })

/-- READ_CONSTANT (R192). -/
def State.answerReadConstant (s : State) (pl : List Byte) : State × Reply :=
  if s.store.busy then s.refuse .busy
  else
    match ConstName.ofCode (byteAt pl 1) with
    | none => s.refuse .badValue
    | some n => (s, { code := .accepted, value := putI32 ((s.store.consts.get n).getD (-1)) })

/-- LOCK_CONSTANTS (R191). -/
def State.answerLock (s : State) : State × Reply :=
  if s.store.busy then s.refuse .busy
  else if s.store.lock then s.refuse .locked
  else if s.store.commissioning ≠ .set then s.refuse .notCommissioned
  else if s.store.editOpen then s.refuse .editOpen
  else if !s.run.state.admitsStore then s.refuse .wrongState
  else
    match s.store.active.validate s.store.consts.lr with
    | some item => (s, { code := .invalidTable, detail := item })
    | none => (s.modStore fun st => { st with cycle := .lock }).accept

end Sys2Proof.Machine
end

