-- ==== Sys2Proof/Machine/Frames.lean ====
section
/-!
DEFINITION. The taking of a good frame (R179): its delivery by type, its REPLY (R180), and the state
messages (R184, R185).
-/

namespace Sys2Proof.Machine

/-- CANCEL, delivered by its scope (R179). -/
def State.answerCancel (s : State) (pl : List Byte) : State × Reply :=
  match byteAt pl 1 with
  | 1 => s.answerCancelEntry (Stop.ofCode (byteAt pl 2))
  | 2 => s.answerCancelAll
  | 3 => s.answerCancelRun
  | _ => s.refuse .badValue

/-- A request of the right length, delivered to its owning block (R179). -/
def State.answer (s : State) (p : Party) (t : MsgType) (pl : List Byte) : State × Reply :=
  match t with
  | .run => s.answerRun (runCandidate pl)
  | .callLoop => s.answerRun (callCandidate p pl)
  | .cancel => s.answerCancel pl
  | .suspend => s.answerSuspend
  | .resume => s.answerResume
  | .creep => s.answerCreep pl
  | .shuttleStart => s.answerShuttleStart pl
  | .shuttleEnd => s.answerShuttleEnd
  | .ackFault => s.answerAck pl
  | .openEdit => s.answerOpenEdit
  | .writeItem => s.answerWriteItem pl
  | .readItem => s.answerReadItem pl
  | .commitEdit => s.answerCommit
  | .abandonEdit => s.answerAbandon
  | .writeConstant => s.answerWriteConstant pl
  | .readConstant => s.answerReadConstant pl
  | .lockConstants => s.answerLock
  | .carState | .loopState | .driveState | .status | .carCommand | .loopCommand | .driveReference
  | .reply => s.refuse .notPermitted

/-- A request is answered and its REPLY handed to the link it came on (R179, R180). -/
def State.takeRequest (s : State) (p : Party) (t : MsgType) (pl : List Byte) : State :=
  let (s1, r) := s.answer p t pl
  s1.reply p t.code pl r

/-! ## State messages -/

/-- The load of a CAR_STATE (R184). -/
def State.reportedLoad (s : State) (raw : Nat) : Option Int :=
  if raw = 0xFFFF then none else some (min (raw : Int) (s.const .mMax))

/-- The car record of a CAR_STATE's payload (R184). -/
def State.carReport (s : State) (pl : List Byte) : CarRecord where
  doors := Doors.ofReport (byteAt pl 0)
  emergency := decide (byteAt pl 1 ≠ 0)
  load := s.reportedLoad (fieldAt pl 2 2)

/-- A CAR_STATE of car k is taken into its record (R184). -/
def State.takeCarState (s : State) (k : Car) (pl : List Byte) : State :=
  ({ s with recs := { s.recs with car := s.recs.car.set k (s.carReport pl) } } : State).settle

/-- The loop record of a LOOP_STATE's payload (R185). -/
def loopReport (pl : List Byte) : LoopRecord :=
  ⟨Gate.ofReport (byteAt pl 0), Gate.ofReport (byteAt pl 1)⟩

/-- A LOOP_STATE is taken into the loop record (R185). -/
def State.takeLoopState (s : State) (pl : List Byte) : State :=
  ({ s with recs := { s.recs with loop := loopReport pl } } : State).settle

/-- The drive record of a DRIVE_STATE's payload (R185). -/
def driveReport (pl : List Byte) : DriveRecord :=
  ⟨decide (byteAt pl 0 = 1), pl.getD 1 0⟩

/-- A DRIVE_STATE is taken into the drive record (R185). -/
def State.takeDriveState (s : State) (pl : List Byte) : State :=
  ({ s with recs := { s.recs with drive := driveReport pl } } : State).settle

/-- A state message from a party (R179): one of the wrong length is discarded. -/
def State.takeMessage (s : State) (p : Party) (t : MsgType) (pl : List Byte) : State :=
  if t.lengthOk pl then
    match p with
    | .car1 => s.takeCarState .one pl
    | .car2 => s.takeCarState .two pl
    | .loopStation => s.takeLoopState pl
    | .drive => s.takeDriveState pl
    | .console => s
  else s

/-! ## Frames -/

/-- A good frame, after it has counted as traffic (R179). -/
def State.takeFrame (s : State) (p : Party) (type : Byte) (pl : List Byte) : State :=
  match MsgType.ofCode type with
  | none => s.reply p type pl { code := .badType }
  | some t =>
    if !t.permitted p then s.reply p type pl { code := .notPermitted }
    else if t.isState then s.takeMessage p t pl
    else if !t.lengthOk pl then s.reply p type pl { code := .badValue }
    else s.takeRequest p t pl

/-- A good frame is complete on a party's link (R177, R179, R182). -/
def State.goodFrame (s : State) (p : Party) (type : Byte) (pl : List Byte) : State :=
  (s.traffic p).takeFrame p type pl

/-- A complete frame with the CRC it carried (R177, R178): it is a good frame if the CRC agrees, and
is otherwise discarded. -/
def State.checkedFrame (s : State) (p : Party) (f : Frame) (crc : BitVec 16) : State :=
  if crc = f.crc then s.goodFrame p f.type f.payload else s

/-- A party's receiver takes one character (R177); while 32 REPLY frames wait on its link it discards
every character and stays as it is, in HUNT (R181). -/
def State.takeChar (p : Party) (s : State) (b : Byte) : State :=
  if (s.link p).blocked then s
  else
    match (s.link p).rx.take b with
    | (rx, none) => s.setRx p rx
    | (rx, some (f, crc)) => (s.setRx p rx).checkedFrame p f crc

/-- A party's receiver takes characters, one after the other (R177). -/
def State.takeChars (p : Party) (bs : List Byte) (s : State) : State := bs.foldl (State.takeChar p) s

/-- A party's receiver takes the characters of a frame after its SYNC, with the CRC they carry (R177;
notes/assumptions/19.md). -/
def State.hearChecked (p : Party) (type : Byte) (pl : List Byte) (crc : BitVec 16) (s : State) : State :=
  s.takeChars p (frameChars type pl crc)

/-- A party's receiver takes the characters of a frame after its SYNC, with its own CRC (R177, R178). -/
def State.hear (p : Party) (type : Byte) (pl : List Byte) (s : State) : State :=
  s.hearChecked p type pl (Frame.crc ⟨type, pl⟩)

end Sys2Proof.Machine
end

