-- ==== Sys2Proof/Machine/StoreCycles.lean ====
section
/-!
DEFINITION. The ends of the store cycles (R190, R191, R198) and start-up (R200, R175).
-/

namespace Sys2Proof.Machine

/-! ## Constant write cycle -/

/-- The channel whose pulse scale a constant is. -/
def ConstName.channel : ConstName → Option Channel
  | .pMain => some .main
  | .pAlt => some .alt
  | _ => none

/-- A changed pulse scale rebases its own channel at its position under the old scale, so that the
position is the same under the new one (R24, R27).  A write of 50 to an unset scale, in force as 50 by
R33, counts as a change (DESIGN CHOICE, unsafe; notes/assumptions/37.md). -/
def State.scaleRebase (s : State) (n : ConstName) (v : Int) : State :=
  match n.channel with
  | some ch =>
    if s.store.consts.get n = some v then s
    else (s.modChan ch fun c => c.rebase (s.chanPos ch)).evalDisagree
  | none => s

/-- Each recorded load above M_max is set to it (R184). -/
def CarRecord.limitLoad (r : CarRecord) (mMax : Int) : CarRecord :=
  { r with load := r.load.map fun x => min x mMax }

/-- The recorded loads after a constant write (R184). -/
def State.limitLoads (s : State) (n : ConstName) : State :=
  match n with
  | .mMax =>
    let m := s.const .mMax
    { s with
      recs := { s.recs with car := ⟨s.recs.car.one.limitLoad m, s.recs.car.two.limitLoad m⟩ } }
  | _ => s

/-- The record of a constant is replaced whole and the cycle ends (R190). -/
def Store.putConstant (st : Store) (n : ConstName) (v : Int) : Store :=
  { st with consts := st.consts.put n v, cycle := .idle }

/-- Completion of a constant write cycle (R190). -/
def State.completeConstant (s : State) (n : ConstName) (v : Int) : State :=
  let s1 := (s.scaleRebase n v).modStore fun st => st.putConstant n v
  (s1.limitLoads n).settle

/-! ## Lock cycle -/

/-- Completion of the lock cycle (R191). -/
def State.completeLock (s : State) : State :=
  ((s.modStore fun st => { st with lock := true, cycle := .idle }).wantArbitration).settle

/-! ## Commit cycle -/

/-- The committed set becomes the stored copy with its mark, and the active set (R197, R198). -/
def Store.commit (st : Store) (o : OperatingSet) : Store :=
  { st with stored := o, mark := true, active := o, cycle := .idle }

/-- The Reckoner takes the replacement of the table: zone records are discarded, and each correction
beyond C_max is limited to it (R4, R39, R198). -/
def Reckoner.replaceTable (r : Reckoner) (cMax : Int) : Reckoner :=
  { r with
    zones := Zone.none
    hasPrev := false
    c := ⟨clamp r.c.one (-cMax) cMax, clamp r.c.two (-cMax) cMax⟩ }

/-- Completion of a commit cycle (R198).  v_p is held until the next sample (R114), so that a completion
before the first sample after FAULT_STOPPING leaves the v_p formed there (DESIGN CHOICE, unsafe;
notes/assumptions/41.md). -/
def State.completeCommit (s : State) (o : OperatingSet) : State :=
  let s1 := s.modStore fun st => st.commit o
  let s2 := (s1.modReck fun r => r.replaceTable o.settings.cMax).restartTimers
  let s3 := { s2 with tableInvalid := false }
  (s3.restartSlots.takeOutputs s.slots).wantArbitration.settle

/-! ## Start-up -/

/-- The store as it starts from retained memory: the records, the lock, the stored copy and its mark
(R200). -/
def Store.startUp (st : Store) : Store :=
  { st with
    active := if st.mark then st.stored else OperatingSet.factory
    staging := none
    cycle := .idle }

/-- The after-reset state with a store loaded, before the Filter Bank starts and before any latch. -/
def State.fresh (pending : List Instr) (st : Store) : State where
  pending := pending
  held := false
  time := 0
  inputs := List.replicate 32 false
  chan := ⟨ChannelRecord.afterReset, ChannelRecord.afterReset⟩
  slots := List.replicate 14 Slot.afterReset
  reck := Reckoner.afterReset
  store := st
  queue := []
  shuttle := Shuttle.afterReset
  run := RunControl.afterReset
  target := none
  prof := Profile.afterReset st.active.lowestLimit
  brk := BrakeUnit.afterReset
  faults := []
  conds := []
  tableInvalid := !st.mark
  links :=
    ⟨Link.afterReset st.active.settings.consoleMs, Link.afterReset st.active.settings.driveMs,
      Link.afterReset st.active.settings.car1Ms, Link.afterReset st.active.settings.car2Ms,
      Link.afterReset st.active.settings.loopMs⟩
  recs := Records.afterReset
  periods := Periods.afterReset

/-- The Filter Bank starts (R52), TABLE_INVALID is latched where no mark was present (R173), and the
messages of a change of run state leave (R78, R187; notes/assumptions/17.md). -/
def State.start (s : State) : State :=
  State.announce s (s.restartSlots.takeOutputs s.slots).settle

/-- Start-up from what retained memory holds (R175, R200). -/
def State.startUp (s : State) : State := (State.fresh s.pending s.store.startUp).start

/-- The part is held in reset: it drives none of its outputs (R157, R175). -/
def State.hold (s : State) : State := { s with held := true, brk := BrakeUnit.afterReset }

end Sys2Proof.Machine
end

