-- ==== Sys2Proof/Machine/FieldEvents.lean ====
section
/-!
DEFINITION. The commands at the supply, the reset line and the field interface: RESET, HELD_IN_RESET,
ENCODER_EDGE and INPUT_LEVEL_CHANGE.
-/

namespace Sys2Proof.Machine

/-- RESET (R175, R200): the part starts from its after-reset state, with what retained memory holds. -/
def execReset (s : State) : Host.Outcome State Fault Refusal := .next s.startUp

/-- HELD_IN_RESET (R157, R175): all three outputs de-energise at this moment. -/
def execHeldInReset (dt : Nat) (s : State) : Host.Outcome State Fault Refusal :=
  .next (s.advance dt).hold

/-- A quadrature edge is counted and captured (R20). -/
def State.countEdge (ch : Channel) (sense : Sense) (s : State) : State :=
  s.modChan ch fun c => c.edge sense s.captureTimer s.time

/-- ENCODER_EDGE (R20). -/
def execEncoderEdge (dt : Nat) (ch : Channel) (sense : Sense) (s : State) :
    Host.Outcome State Fault Refusal := .next (s.event dt (State.countEdge ch sense))

/-- The level of an input at a voltage in mV, when it stood at a level before (R175). -/
def levelOf (mv : Nat) (was : Bool) : Bool :=
  if 15000 ≤ mv then true else if mv ≤ 5000 then false else was

/-- The sampled levels after a sampling instant (R175). -/
def State.seenLevels (s : State) (seen : List (Fin 32 × Nat)) : List Bool :=
  seen.foldl (fun ins nv => ins.set nv.1.val (levelOf nv.2 (ins.getD nv.1.val false))) s.inputs

/-- The inputs in numerical order. -/
def allInputs : List (Fin 32) := List.finRange 32

/-- A sampling instant (R175): the levels, the checkpoint edges of the inputs that rise (R37), and the
event's consequences. -/
def State.seeInputs (seen : List (Fin 32 × Nat)) (s : State) : State :=
  let s1 : State := { s with inputs := s.seenLevels seen }
  ((allInputs.filter fun n => s1.input n && !s.input n).foldl State.inputEdge s1).settle

/-- INPUT_LEVEL_CHANGE (R175). -/
def execInputLevelChange (dt : Nat) (seen : List (Fin 32 × Nat)) (s : State) :
    Host.Outcome State Fault Refusal := .next (s.event dt (State.seeInputs seen))

end Sys2Proof.Machine
end

