-- ==== Sys2Proof/Machine/SampleEvents.lean ====
section
/-!
DEFINITION. The commands of the sample and filter timers: SAMPLE_TIMER_EXPIRY,
STANDSTILL_TIMER_EXPIRY and FILTER_TIMER_EXPIRY; and the effectiveness check, which is decided with a
sample or at its own expiry.
-/

namespace Sys2Proof.Machine

/-! ## Effectiveness checks (R149) -/

/-- Whether a check fails at a speed: |v| exceeds max(20, v0 − a_min) (R149). -/
def Check.fails (c : Check) (absV aMin : Int) : Bool := decide (max 20 (c.v0 - aMin) < absV)

/-- The union of the brake sets of a list of checks. -/
def brakesOf (cs : List Check) : BrakeSet :=
  cs.foldl (fun b c => b.join c.brakes) ⟨false, false⟩

/-- What failed checks bring (R149): the report naming their brakes, the apply of the emergency brake
where a check did not include it, and the rail brake demand where one did. -/
def State.failChecks (s : State) (failed : List Check) : State :=
  if failed = [] then s
  else
    let s1 := s.report { kind := .brakeIneffective, brakes := brakesOf failed }
    let s2 := if failed.any fun c => !c.brakes.emergency then s1.apply ⟨false, true⟩ else s1
    if failed.any fun c => c.brakes.emergency then s2.modBrk fun u => { u with rail := true } else s2

/-- The checks that a test names end and are decided at the latest published sample (R149). -/
def State.decideChecks (s : State) (due : Check → Bool) : State :=
  let ended := s.brk.checks.filter due
  (s.modBrk fun u => { u with checks := u.checks.filter fun c => !due c }).failChecks
    (ended.filter fun c => c.fails s.absV s.settings.aMin)

/-- The expiry of the due checks (R149): at the instant of a sample not yet published they wait for
that sample. -/
def State.expireChecks (s : State) : State :=
  if s.sampleAwaited then
    s.modBrk fun u =>
      { u with
        checks := u.checks.map fun c => { c with elapsed := c.elapsed || decide (c.due ≤ s.time) } }
  else (s.decideChecks fun c => decide (c.due ≤ s.time)).settle

/-! ## The sample -/

/-- The sample timer is due again 10 ms on (R21). -/
def State.scheduleSample (s : State) : State :=
  { s with periods := { s.periods with sample := s.time + ms 10 } }

/-- The Reckoner's part of a sample expiry, steps 1 to 5 (R25).  A terminal referencing at step 3 comes
before the publication of s, which was formed at step 1 (notes/assumptions/39.md).  Where step 3 or a pass
test brings a fault stop, the Run Record is discarded before the overtravel test of step 4, so the
terminal targets (R42) take the loads of the party records and not the frozen ones: the model's choice
(DESIGN CHOICE, notes/assumptions/45.md). -/
def State.reckonSample (s : State) : State :=
  let s1 := s.scheduleSample.formSpeeds
  let new := s1.draftSample
  (s1.updateConditions.detect.sampleTests new).publish new

/-- The Run Controller takes the published sample: standstill (R81), the test on distance (R88, R89),
and every move of its own that follows at this event (R83, R104). -/
def State.controlSample (s : State) : State := s.sampleStandstill.testDistance.settle

/-- The other blocks take the published sample: the permitted speed for the run state it finds (R114),
the Run Controller's part, and then, for the run state that stands after that, the reference (R115), the
end of a suspend ramp (R96), the DRIVE_REFERENCE (R156) and supervision (R121)
(notes/assumptions/14.md). -/
def State.takePublished (s : State) : State :=
  s.permit.controlSample.formReference.endSuspendRamp.sendDrive.supervise

/-- SAMPLE_TIMER_EXPIRY as the blocks take it. -/
def State.takeSample (s : State) : State :=
  if s.sampleAwaited then (s.reckonSample.takePublished.decideChecks (·.elapsed)).settle else s

/-- SAMPLE_TIMER_EXPIRY (R21, R25). -/
def execSampleTimerExpiry (dt : Nat) (s : State) : Host.Outcome State Fault Refusal :=
  .next (s.event dt State.takeSample)

/-- The expiry of a standstill timer that is due (R81). -/
def State.takeStandstill (s : State) : State :=
  if isDue s.run.standstillDue s.time then s.expireStandstill.settle else s

/-- STANDSTILL_TIMER_EXPIRY (R81). -/
def execStandstillTimerExpiry (dt : Nat) (s : State) : Host.Outcome State Fault Refusal :=
  .next (s.event dt State.takeStandstill)

/-- The expiry of filter slots' timers and its consequences (R48, R49). -/
def State.takeFilterExpiry (which : List (Fin 14)) (s : State) : State :=
  ((s.expireSlots which).takeOutputs s.slots).settle

/-- FILTER_TIMER_EXPIRY (R48). -/
def execFilterTimerExpiry (dt : Nat) (slots : List (Fin 14)) (s : State) :
    Host.Outcome State Fault Refusal := .next (s.event dt (State.takeFilterExpiry slots))

/-- EFFECTIVENESS_CHECK_EXPIRY (R149). -/
def execEffectivenessCheckExpiry (dt : Nat) (s : State) : Host.Outcome State Fault Refusal :=
  .next (s.event dt State.expireChecks)

end Sys2Proof.Machine
end

