-- ==== Sys2Proof/Machine/RunTimers.lean ====
section
/-!
DEFINITION. The commands of the Run Controller's and the brakes' timers.  An expiry acts when its
timer runs and is due (notes/assumptions/1.md).
-/

namespace Sys2Proof.Machine

/-- Expiry of the prepare timer: the run is abandoned (R72, R85). -/
def State.expirePrepare (s : State) : State :=
  let served := (s.run.record.map (·.served)).getD []
  ((s.removeServed served).enterParked.report { kind := .prepareTimeout }).settle

/-- The expiry of a prepare timer that is due, in PREPARING (R85). -/
def State.takePrepareExpiry (s : State) : State :=
  if isDue s.run.prepareDue s.time ∧ s.run.state = .preparing then s.expirePrepare else s

/-- PREPARE_TIMER_EXPIRY (R85). -/
def execPrepareTimerExpiry (dt : Nat) (s : State) : Host.Outcome State Fault Refusal :=
  .next (s.event dt State.takePrepareExpiry)

/-- The expiry of a dwell timer that is due (R95). -/
def State.takeDwellExpiry (s : State) : State :=
  if isDue s.run.dwellDue s.time then (s.modRun fun r => { r with dwellDue := none }).settle else s

/-- DWELL_TIMER_EXPIRY (R95). -/
def execDwellTimerExpiry (dt : Nat) (s : State) : Host.Outcome State Fault Refusal :=
  .next (s.event dt State.takeDwellExpiry)

/-- The lapse of a creep hold, by the state at the lapse (R101). -/
def State.lapse (s : State) : State :=
  match s.run.state with
  | .preparing => s.enterParked.settle
  | .releasing | .running | .finalApproach => (s.enterSettling .creepLapse).settle
  | _ => s.modRun fun r => { r with creepDue := none }

/-- The expiry of a creep hold timer that is due (R100, R101). -/
def State.takeCreepLapse (s : State) : State := if isDue s.run.creepDue s.time then s.lapse else s

/-- CREEP_HOLD_LAPSE (R101). -/
def execCreepHoldLapse (dt : Nat) (s : State) : Host.Outcome State Fault Refusal :=
  .next (s.event dt State.takeCreepLapse)

/-- Whether a brake's deadline in a state is due. -/
def Brake.dueIn (b : Brake) (st : BrakeState) (now : Nat) : Bool :=
  decide (b.state = st) && isDue b.due now

/-- The brakes whose deadline in a state is due. -/
def State.dueBrakes (s : State) (st : BrakeState) : BrakeSet :=
  ⟨s.brk.service.dueIn st s.time, s.brk.emergency.dueIn st s.time⟩

/-- A brake at the expiry of its release deadline: the timer is idle (R145). -/
def Brake.releaseExpired (b : Brake) (is : Bool) : Brake := if is then { b with due := none } else b

/-- A brake at the expiry of its apply deadline: the timer is idle and the apply-ended mark is set
(R146). -/
def Brake.applyExpired (b : Brake) (is : Bool) : Brake :=
  if is then { b with due := none, ended := true } else b

/-- The expiry of the release deadlines of the brakes that are RELEASING and due (R145). -/
def State.takeReleaseExpiry (s : State) : State :=
  let which := s.dueBrakes .releasing
  if which.any then
    ((s.modBrk fun u =>
      { u with
        service := u.service.releaseExpired which.service
        emergency := u.emergency.releaseExpired which.emergency }).report
      { kind := .brakeReleaseTimeout, brakes := which }).settle
  else s

/-- BRAKE_RELEASE_DEADLINE_EXPIRY (R145). -/
def execBrakeReleaseDeadlineExpiry (dt : Nat) (s : State) : Host.Outcome State Fault Refusal :=
  .next (s.event dt State.takeReleaseExpiry)

/-- The expiry of the apply deadlines of the brakes that are APPLYING and due (R146). -/
def State.takeApplyExpiry (s : State) : State :=
  let which := s.dueBrakes .applying
  if which.any then
    ((s.modBrk fun u =>
      { u with
        service := u.service.applyExpired which.service
        emergency := u.emergency.applyExpired which.emergency }).report
      { kind := .brakeApplyTimeout, brakes := which }).settle
  else s

/-- BRAKE_APPLY_DEADLINE_EXPIRY (R146). -/
def execBrakeApplyDeadlineExpiry (dt : Nat) (s : State) : Host.Outcome State Fault Refusal :=
  .next (s.event dt State.takeApplyExpiry)

/-- The expiry of a quick-stop timer that is due: both brakes are applied (R153). -/
def State.takeQuickStop (s : State) : State :=
  if isDue s.brk.quickDue s.time then s.classApply.settle else s

/-- QUICK_STOP_TIMER_EXPIRY (R153). -/
def execQuickStopTimerExpiry (dt : Nat) (s : State) : Host.Outcome State Fault Refusal :=
  .next (s.event dt State.takeQuickStop)

end Sys2Proof.Machine
end

