-- ==== Sys2Proof/Machine/LinkEvents.lean ====
section
/-!
DEFINITION. The commands of the lines themselves: characters and frames that are not requests, link
timeouts, the transmitters, and the period timers of the part's own messages.
-/

namespace Sys2Proof.Machine

/-! ## Supervision -/

/-- The expiry of a supervision timer that is due (R182). -/
def State.takeLinkTimeout (p : Party) (s : State) : State :=
  if isDue (s.link p).due s.time then
    if s.linkUp p then (s.loseLink p).settle else s.modLink p fun l => { l with due := none }
  else s

/-- LINK_TIMEOUT (R182). -/
def execLinkTimeout (dt : Nat) (p : Party) (s : State) : Host.Outcome State Fault Refusal :=
  .next (s.event dt (State.takeLinkTimeout p))

/-! ## Characters -/

/-- FRAME_GAP_TIMEOUT (R177): the frame in progress is discarded. -/
def execFrameGapTimeout (dt : Nat) (p : Party) (s : State) : Host.Outcome State Fault Refusal :=
  .next (s.event dt fun s => s.modLink p Link.hunt)

/-- FRAME_START_SYNC (R177): a 0x5A character. -/
def execFrameStartSync (dt : Nat) (p : Party) (s : State) : Host.Outcome State Fault Refusal :=
  .next (s.event dt (State.takeChars p [0x5A]))

/-- MISSING_STOP_BIT (R177): the frame in progress is discarded and the character is not used. -/
def execMissingStopBit (dt : Nat) (p : Party) (s : State) : Host.Outcome State Fault Refusal :=
  .next (s.event dt fun s => s.modLink p Link.hunt)

/-- LEN_ABOVE_192 (R177): the TYPE and LEN characters of a frame. -/
def execLenAbove192 (dt : Nat) (p : Party) (head : FrameHead) (s : State) :
    Host.Outcome State Fault Refusal := .next (s.event dt (State.takeChars p [head.type, head.len]))

/-! ## Frames that are answered by the Link Unit alone, or not at all -/

/-- CRC_FAILED_FRAME (R177, R178). -/
def execCrcFailedFrame (dt : Nat) (p : Party) (type : Byte) (payload : List Byte)
    (crc : BitVec 16) (s : State) : Host.Outcome State Fault Refusal :=
  .next (s.event dt (State.hearChecked p type payload crc))

/-- BAD_TYPE_FRAME (R179). -/
def execBadTypeFrame (dt : Nat) (p : Party) (type : Byte) (payload : List Byte) (s : State) :
    Host.Outcome State Fault Refusal := .next (s.event dt (State.hear p type payload))

/-- NOT_PERMITTED_FRAME (R179). -/
def execNotPermittedFrame (dt : Nat) (p : Party) (type : Byte) (payload : List Byte) (s : State) :
    Host.Outcome State Fault Refusal := .next (s.event dt (State.hear p type payload))

/-! ## Transmitters and periods -/

/-- TRANSMIT_COMPLETE (R181). -/
def execTransmitComplete (dt : Nat) (p : Party) (s : State) : Host.Outcome State Fault Refusal :=
  .next (s.event dt fun s => s.modLink p Link.transmitted)

/-- The expiry of the STATUS timer when it is due (R186). -/
def State.takeStatusTimer (s : State) : State :=
  if s.periods.status ≤ s.time then
    { s.sendStatus with periods := { s.periods with status := s.time + period } }
  else s

/-- STATUS_TIMER_EXPIRY (R186). -/
def execStatusTimerExpiry (dt : Nat) (s : State) : Host.Outcome State Fault Refusal :=
  .next (s.event dt State.takeStatusTimer)

/-- The expiry of a car's CAR_COMMAND timer when it is due (R187). -/
def State.takeCarPeriod (k : Car) (s : State) : State :=
  if s.periods.car.get k ≤ s.time then s.sendCar k else s

/-- CAR_COMMAND_PERIOD_EXPIRY (R187). -/
def execCarCommandPeriodExpiry (dt : Nat) (car : Car) (s : State) :
    Host.Outcome State Fault Refusal := .next (s.event dt (State.takeCarPeriod car))

/-- The expiry of the LOOP_COMMAND timer when it is due (R187). -/
def State.takeLoopPeriod (s : State) : State := if s.periods.loop ≤ s.time then s.sendLoop else s

/-- LOOP_COMMAND_PERIOD_EXPIRY (R187). -/
def execLoopCommandPeriodExpiry (dt : Nat) (s : State) : Host.Outcome State Fault Refusal :=
  .next (s.event dt State.takeLoopPeriod)

end Sys2Proof.Machine
end

