-- ==== Sys2Proof/Machine/RunRequests.lean ====
section
/-!
DEFINITION. The run requests and service requests of the Request Arbiter, and the requests of the Run
Controller.  Each is a good frame on the link it comes on (R179); its own rule says what it does
there.
-/

namespace Sys2Proof.Machine

/-- RUN (R57). -/
def execRun (dt : Nat) (payload : List Byte) (s : State) : Host.Outcome State Fault Refusal :=
  .next (s.event dt (State.hear .console MsgType.run.code payload))

/-- CALL_LOOP (R56), from the party that sent it. -/
def execCallLoop (dt : Nat) (p : Party) (payload : List Byte) (s : State) :
    Host.Outcome State Fault Refusal :=
  .next (s.event dt (State.hear p MsgType.callLoop.code payload))

/-- CANCEL with scope ENTRY (R68). -/
def execCancelEntry (dt : Nat) (payload : List Byte) (s : State) : Host.Outcome State Fault Refusal :=
  .next (s.event dt (State.hear .console MsgType.cancel.code payload))

/-- CANCEL with scope ALL (R68). -/
def execCancelAll (dt : Nat) (payload : List Byte) (s : State) : Host.Outcome State Fault Refusal :=
  .next (s.event dt (State.hear .console MsgType.cancel.code payload))

/-- CANCEL with scope RUN (R98). -/
def execCancelRun (dt : Nat) (payload : List Byte) (s : State) : Host.Outcome State Fault Refusal :=
  .next (s.event dt (State.hear .console MsgType.cancel.code payload))

/-- SUSPEND (R96). -/
def execSuspend (dt : Nat) (payload : List Byte) (s : State) : Host.Outcome State Fault Refusal :=
  .next (s.event dt (State.hear .console MsgType.suspend.code payload))

/-- RESUME (R97). -/
def execResume (dt : Nat) (payload : List Byte) (s : State) : Host.Outcome State Fault Refusal :=
  .next (s.event dt (State.hear .console MsgType.resume.code payload))

/-- CREEP (R99). -/
def execCreep (dt : Nat) (payload : List Byte) (s : State) : Host.Outcome State Fault Refusal :=
  .next (s.event dt (State.hear .console MsgType.creep.code payload))

/-- SHUTTLE_START (R74). -/
def execShuttleStart (dt : Nat) (payload : List Byte) (s : State) : Host.Outcome State Fault Refusal :=
  .next (s.event dt (State.hear .console MsgType.shuttleStart.code payload))

/-- SHUTTLE_END (R75). -/
def execShuttleEnd (dt : Nat) (payload : List Byte) (s : State) : Host.Outcome State Fault Refusal :=
  .next (s.event dt (State.hear .console MsgType.shuttleEnd.code payload))

end Sys2Proof.Machine
end

