-- ==== Sys2Proof/Machine/StoreRequests.lean ====
section
/-!
DEFINITION. The acknowledgements and the requests of the Configuration Store, each a good frame on
the console link (R179), and the ends of the store cycles.
-/

namespace Sys2Proof.Machine

/-- ACK_FAULT naming a kind (R168). -/
def execAckFault (dt : Nat) (payload : List Byte) (s : State) : Host.Outcome State Fault Refusal :=
  .next (s.event dt (State.hear .console MsgType.ackFault.code payload))

/-- ACK_FAULT ALL (R169). -/
def execAckFaultAll (dt : Nat) (payload : List Byte) (s : State) : Host.Outcome State Fault Refusal :=
  .next (s.event dt (State.hear .console MsgType.ackFault.code payload))

/-- OPEN_EDIT (R194). -/
def execOpenEdit (dt : Nat) (payload : List Byte) (s : State) : Host.Outcome State Fault Refusal :=
  .next (s.event dt (State.hear .console MsgType.openEdit.code payload))

/-- WRITE_ITEM (R195). -/
def execWriteItem (dt : Nat) (payload : List Byte) (s : State) : Host.Outcome State Fault Refusal :=
  .next (s.event dt (State.hear .console MsgType.writeItem.code payload))

/-- READ_ITEM (R196). -/
def execReadItem (dt : Nat) (payload : List Byte) (s : State) : Host.Outcome State Fault Refusal :=
  .next (s.event dt (State.hear .console MsgType.readItem.code payload))

/-- COMMIT_EDIT (R197). -/
def execCommitEdit (dt : Nat) (payload : List Byte) (s : State) : Host.Outcome State Fault Refusal :=
  .next (s.event dt (State.hear .console MsgType.commitEdit.code payload))

/-- ABANDON_EDIT (R199). -/
def execAbandonEdit (dt : Nat) (payload : List Byte) (s : State) : Host.Outcome State Fault Refusal :=
  .next (s.event dt (State.hear .console MsgType.abandonEdit.code payload))

/-- WRITE_CONSTANT (R189). -/
def execWriteConstant (dt : Nat) (payload : List Byte) (s : State) : Host.Outcome State Fault Refusal :=
  .next (s.event dt (State.hear .console MsgType.writeConstant.code payload))

/-- READ_CONSTANT (R192). -/
def execReadConstant (dt : Nat) (payload : List Byte) (s : State) : Host.Outcome State Fault Refusal :=
  .next (s.event dt (State.hear .console MsgType.readConstant.code payload))

/-- LOCK_CONSTANTS (R191). -/
def execLockConstants (dt : Nat) (payload : List Byte) (s : State) : Host.Outcome State Fault Refusal :=
  .next (s.event dt (State.hear .console MsgType.lockConstants.code payload))

/-! ## Store cycles -/

/-- The end of a constant write cycle in flight (R190). -/
def State.takeConstantEnd (s : State) : State :=
  match s.store.cycle with
  | .constant n v => s.completeConstant n v
  | _ => s

/-- CONSTANT_WRITE_COMPLETE (R190). -/
def execConstantWriteComplete (dt : Nat) (s : State) : Host.Outcome State Fault Refusal :=
  .next (s.event dt State.takeConstantEnd)

/-- The end of a lock cycle in flight (R191). -/
def State.takeLockEnd (s : State) : State :=
  match s.store.cycle with
  | .lock => s.completeLock
  | _ => s

/-- LOCK_CYCLE_COMPLETE (R191). -/
def execLockCycleComplete (dt : Nat) (s : State) : Host.Outcome State Fault Refusal :=
  .next (s.event dt State.takeLockEnd)

/-- The end of a commit cycle in flight (R198). -/
def State.takeCommitEnd (s : State) : State :=
  match s.store.cycle with
  | .commit o => s.completeCommit o
  | _ => s

/-- COMMIT_CYCLE_COMPLETE (R198). -/
def execCommitCycleComplete (dt : Nat) (s : State) : Host.Outcome State Fault Refusal :=
  .next (s.event dt State.takeCommitEnd)

end Sys2Proof.Machine
end

