-- ==== Sys2Proof/Machine/PartyStates.lean ====
section
/-!
DEFINITION. The state messages of the parties, each a good frame on its party's link (R179).
-/

namespace Sys2Proof.Machine

/-- CAR_STATE (R184). -/
def execCarState (dt : Nat) (car : Car) (payload : List Byte) (s : State) :
    Host.Outcome State Fault Refusal :=
  .next (s.event dt (State.hear car.party MsgType.carState.code payload))

/-- LOOP_STATE (R185). -/
def execLoopState (dt : Nat) (payload : List Byte) (s : State) :
    Host.Outcome State Fault Refusal :=
  .next (s.event dt (State.hear .loopStation MsgType.loopState.code payload))

/-- DRIVE_STATE (R185). -/
def execDriveState (dt : Nat) (payload : List Byte) (s : State) :
    Host.Outcome State Fault Refusal :=
  .next (s.event dt (State.hear .drive MsgType.driveState.code payload))

end Sys2Proof.Machine
end

