-- ==== Sys2Proof/Machine/Dispatch.lean ====
section
/-!
DEFINITION. The dispatch of a command to its meaning.
-/

namespace Sys2Proof.Machine

def exec (i : Instr) (s : State) : Host.Outcome State Fault Refusal :=
  match i with
  | .reset => Sys2Proof.Machine.execReset s
  | .encoderEdge dt ch sense => Sys2Proof.Machine.execEncoderEdge dt ch sense s
  | .inputLevelChange dt seen => Sys2Proof.Machine.execInputLevelChange dt seen s
  | .sampleTimerExpiry dt => Sys2Proof.Machine.execSampleTimerExpiry dt s
  | .standstillTimerExpiry dt => Sys2Proof.Machine.execStandstillTimerExpiry dt s
  | .filterTimerExpiry dt slots => Sys2Proof.Machine.execFilterTimerExpiry dt slots s
  | .prepareTimerExpiry dt => Sys2Proof.Machine.execPrepareTimerExpiry dt s
  | .dwellTimerExpiry dt => Sys2Proof.Machine.execDwellTimerExpiry dt s
  | .creepHoldLapse dt => Sys2Proof.Machine.execCreepHoldLapse dt s
  | .brakeReleaseDeadlineExpiry dt => Sys2Proof.Machine.execBrakeReleaseDeadlineExpiry dt s
  | .brakeApplyDeadlineExpiry dt => Sys2Proof.Machine.execBrakeApplyDeadlineExpiry dt s
  | .effectivenessCheckExpiry dt => Sys2Proof.Machine.execEffectivenessCheckExpiry dt s
  | .quickStopTimerExpiry dt => Sys2Proof.Machine.execQuickStopTimerExpiry dt s
  | .linkTimeout dt p => Sys2Proof.Machine.execLinkTimeout dt p s
  | .frameGapTimeout dt p => Sys2Proof.Machine.execFrameGapTimeout dt p s
  | .crcFailedFrame dt p type payload crc => Sys2Proof.Machine.execCrcFailedFrame dt p type payload crc s
  | .badTypeFrame dt p type payload => Sys2Proof.Machine.execBadTypeFrame dt p type payload s
  | .transmitComplete dt p => Sys2Proof.Machine.execTransmitComplete dt p s
  | .run dt payload => Sys2Proof.Machine.execRun dt payload s
  | .callLoop dt p payload => Sys2Proof.Machine.execCallLoop dt p payload s
  | .cancelEntry dt payload => Sys2Proof.Machine.execCancelEntry dt payload s
  | .cancelAll dt payload => Sys2Proof.Machine.execCancelAll dt payload s
  | .cancelRun dt payload => Sys2Proof.Machine.execCancelRun dt payload s
  | .suspend dt payload => Sys2Proof.Machine.execSuspend dt payload s
  | .resume dt payload => Sys2Proof.Machine.execResume dt payload s
  | .creep dt payload => Sys2Proof.Machine.execCreep dt payload s
  | .shuttleStart dt payload => Sys2Proof.Machine.execShuttleStart dt payload s
  | .shuttleEnd dt payload => Sys2Proof.Machine.execShuttleEnd dt payload s
  | .ackFault dt payload => Sys2Proof.Machine.execAckFault dt payload s
  | .ackFaultAll dt payload => Sys2Proof.Machine.execAckFaultAll dt payload s
  | .openEdit dt payload => Sys2Proof.Machine.execOpenEdit dt payload s
  | .writeItem dt payload => Sys2Proof.Machine.execWriteItem dt payload s
  | .readItem dt payload => Sys2Proof.Machine.execReadItem dt payload s
  | .commitEdit dt payload => Sys2Proof.Machine.execCommitEdit dt payload s
  | .abandonEdit dt payload => Sys2Proof.Machine.execAbandonEdit dt payload s
  | .writeConstant dt payload => Sys2Proof.Machine.execWriteConstant dt payload s
  | .readConstant dt payload => Sys2Proof.Machine.execReadConstant dt payload s
  | .lockConstants dt payload => Sys2Proof.Machine.execLockConstants dt payload s
  | .constantWriteComplete dt => Sys2Proof.Machine.execConstantWriteComplete dt s
  | .lockCycleComplete dt => Sys2Proof.Machine.execLockCycleComplete dt s
  | .commitCycleComplete dt => Sys2Proof.Machine.execCommitCycleComplete dt s
  | .carState dt car payload => Sys2Proof.Machine.execCarState dt car payload s
  | .loopState dt payload => Sys2Proof.Machine.execLoopState dt payload s
  | .driveState dt payload => Sys2Proof.Machine.execDriveState dt payload s
  | .statusTimerExpiry dt => Sys2Proof.Machine.execStatusTimerExpiry dt s
  | .carCommandPeriodExpiry dt car => Sys2Proof.Machine.execCarCommandPeriodExpiry dt car s
  | .loopCommandPeriodExpiry dt => Sys2Proof.Machine.execLoopCommandPeriodExpiry dt s
  | .heldInReset dt => Sys2Proof.Machine.execHeldInReset dt s
  | .frameStartSync dt p => Sys2Proof.Machine.execFrameStartSync dt p s
  | .missingStopBit dt p => Sys2Proof.Machine.execMissingStopBit dt p s
  | .lenAbove192 dt p head => Sys2Proof.Machine.execLenAbove192 dt p head s
  | .notPermittedFrame dt p type payload => Sys2Proof.Machine.execNotPermittedFrame dt p type payload s

end Sys2Proof.Machine
end

