-- ==== Sys2Proof/WellFormed.lean ====
section
/-!
DEFINITION. Which commands are well formed: what the operands of a command must be for it to be the
event that its row names.
-/

namespace Sys2Proof

open Sys2Proof.Machine

/-- Whether no two members of a list are equal. -/
def distinct {α : Type} [DecidableEq α] : List α → Bool
  | [] => true
  | a :: rest => !rest.contains a && distinct rest

/-- Whether a payload fits a frame: LEN is at most 192 (R176). -/
def fitsFrame (payload : List Byte) : Bool := decide (payload.length ≤ 192)

/-- Whether a TYPE is a known code that a party may not send (R179). -/
def mayNotSend (p : Party) (type : Byte) : Bool :=
  match MsgType.ofCode type with
  | some t => !t.permitted p
  | none => false

/-- The party whose characters a command brings. -/
def Instr.sender : Instr → Option Party
  | .crcFailedFrame _ p _ _ _ | .badTypeFrame _ p _ _ | .notPermittedFrame _ p _ _ | .callLoop _ p _
  | .frameStartSync _ p | .lenAbove192 _ p _ => some p
  | .run _ _ | .cancelEntry _ _ | .cancelAll _ _ | .cancelRun _ _ | .suspend _ _ | .resume _ _
  | .creep _ _ | .shuttleStart _ _ | .shuttleEnd _ _ | .ackFault _ _ | .ackFaultAll _ _ | .openEdit _ _
  | .writeItem _ _ | .readItem _ _ | .commitEdit _ _ | .abandonEdit _ _ | .writeConstant _ _
  | .readConstant _ _ | .lockConstants _ _ => some .console
  | .carState _ k _ => some k.party
  | .loopState _ _ => some .loopStation
  | .driveState _ _ => some .drive
  | .reset | .encoderEdge _ _ _ | .inputLevelChange _ _ | .sampleTimerExpiry _
  | .standstillTimerExpiry _ | .filterTimerExpiry _ _ | .prepareTimerExpiry _ | .dwellTimerExpiry _
  | .creepHoldLapse _ | .brakeReleaseDeadlineExpiry _ | .brakeApplyDeadlineExpiry _
  | .effectivenessCheckExpiry _ | .quickStopTimerExpiry _ | .linkTimeout _ _ | .frameGapTimeout _ _
  | .transmitComplete _ _ | .constantWriteComplete _ | .lockCycleComplete _ | .commitCycleComplete _
  | .statusTimerExpiry _ | .carCommandPeriodExpiry _ _ | .loopCommandPeriodExpiry _ | .heldInReset _
  | .missingStopBit _ _ => none

/-- Whether a command is well formed. -/
def Instr.wf : Instr → Bool
  | .reset => true
  | .encoderEdge _ _ _ => true
  | .inputLevelChange _ seen => distinct (seen.map (·.1)) && !seen.isEmpty
  | .sampleTimerExpiry _ => true
  | .standstillTimerExpiry _ => true
  | .filterTimerExpiry _ slots => distinct slots && !slots.isEmpty
  | .prepareTimerExpiry _ => true
  | .dwellTimerExpiry _ => true
  | .creepHoldLapse _ => true
  | .brakeReleaseDeadlineExpiry _ => true
  | .brakeApplyDeadlineExpiry _ => true
  | .effectivenessCheckExpiry _ => true
  | .quickStopTimerExpiry _ => true
  | .linkTimeout _ _ => true
  | .frameGapTimeout _ _ => true
  | .crcFailedFrame _ _ type payload crc => fitsFrame payload && crc != Frame.crc ⟨type, payload⟩
  | .badTypeFrame _ _ type payload => fitsFrame payload && (MsgType.ofCode type).isNone
  | .transmitComplete _ _ => true
  | .run _ payload => fitsFrame payload
  | .callLoop _ p payload => fitsFrame payload && MsgType.callLoop.permitted p
  | .cancelEntry _ payload => fitsFrame payload && byteAt payload 1 == 1
  | .cancelAll _ payload => fitsFrame payload && byteAt payload 1 == 2
  | .cancelRun _ payload => fitsFrame payload && byteAt payload 1 != 1 && byteAt payload 1 != 2
  | .suspend _ payload => fitsFrame payload
  | .resume _ payload => fitsFrame payload
  | .creep _ payload => fitsFrame payload
  | .shuttleStart _ payload => fitsFrame payload
  | .shuttleEnd _ payload => fitsFrame payload
  | .ackFault _ payload => fitsFrame payload && byteAt payload 1 != 0
  | .ackFaultAll _ payload => fitsFrame payload && byteAt payload 1 == 0
  | .openEdit _ payload => fitsFrame payload
  | .writeItem _ payload => fitsFrame payload
  | .readItem _ payload => fitsFrame payload
  | .commitEdit _ payload => fitsFrame payload
  | .abandonEdit _ payload => fitsFrame payload
  | .writeConstant _ payload => fitsFrame payload
  | .readConstant _ payload => fitsFrame payload
  | .lockConstants _ payload => fitsFrame payload
  | .constantWriteComplete _ => true
  | .lockCycleComplete _ => true
  | .commitCycleComplete _ => true
  | .carState _ _ payload => fitsFrame payload
  | .loopState _ payload => fitsFrame payload
  | .driveState _ payload => fitsFrame payload
  | .statusTimerExpiry _ => true
  | .carCommandPeriodExpiry _ _ => true
  | .loopCommandPeriodExpiry _ => true
  | .heldInReset _ => true
  | .frameStartSync _ _ => true
  | .missingStopBit _ _ => true
  | .lenAbove192 _ _ head => decide (192 < head.len.toNat)
  | .notPermittedFrame _ p type payload => fitsFrame payload && mayNotSend p type

end Sys2Proof
end

