-- ==== Sys2Proof/Safety.lean ====
section
/-!
DEFINITION. What counts as safe: the laws that the manual states of the whole part, each a property of
one state.  Claims say that every command keeps them.
-/

namespace Sys2Proof.Machine

/-- A run state in which all three outputs are off (the table of 5.1). -/
def RunState.standing : RunState → Bool
  | .parked | .preparing | .dwell | .suspended | .faultHeld => true
  | _ => false

/-- A run state in which a Run Record is present (the table of 5.1). -/
def RunState.hasRecord : RunState → Bool
  | .preparing | .releasing | .running | .finalApproach | .settling | .suspending | .suspended => true
  | _ => false

/-- SERVICE BRAKE RELEASE and EMERGENCY BRAKE RELEASE are energised only while DRIVE ENABLE is
energised (R140). -/
def State.OutputLaw (s : State) : Prop :=
  s.brk.service.output = true ∨ s.brk.emergency.output = true → s.brk.enable = true

/-- An apply-ended mark belongs to a brake in APPLYING (R141, R146). -/
def Brake.MarkLaw (b : Brake) : Prop := b.ended = true → b.state = .applying

/-- The apply-ended marks of both brakes (R141, R146). -/
def State.MarkLaw (s : State) : Prop := s.brk.service.MarkLaw ∧ s.brk.emergency.MarkLaw

/-- DRIVE ENABLE is off in the standing states (5.1, R78). -/
def State.StandingLaw (s : State) : Prop := s.run.state.standing = true → s.brk.enable = false

/-- While any Active Fault Set entry has class SERVICE_STOP or higher, the run state is FAULT_STOPPING
or FAULT_HELD (R103). -/
def State.StopLaw (s : State) : Prop := s.stopDemanded = true → s.run.state.isFault = true

/-- A Run Record is present exactly in the states of a run (R78, R79). -/
def State.RecordLaw (s : State) : Prop := s.run.record.isSome = s.run.state.hasRecord

/-- The Request Queue holds at most 6 entries, and no two of one identity (R59). -/
def State.QueueLaw (s : State) : Prop :=
  s.queue.length ≤ 6 ∧ (s.queue.map (·.id)).Nodup

/-- The reference is 0 in the states in which the rope stands (R115). -/
def State.ZeroLaw (s : State) : Prop := s.run.state.zeroReference = true → s.prof.vRef = 0

/-- Every Operating Set that a store holds. -/
def Store.sets (st : Store) : List OperatingSet :=
  [st.stored, st.active] ++ st.staging.toList
    ++ (match st.cycle with
      | .commit o => [o]
      | _ => [])

/-- C_max of every set in the store is not negative; its range is 50 to 3,000 (R193). -/
def Store.BoundLaw (st : Store) : Prop := ∀ o ∈ st.sets, 0 ≤ o.settings.cMax

/-- For each car the magnitude of the checkpoint correction is at most C_max (R39). -/
def State.CorrectionLaw (s : State) : Prop :=
  s.store.BoundLaw ∧ ∀ k : Car, mag (s.reck.c.get k) ≤ s.settings.cMax

/-- Every class in a set's class table is at least the kind's floor, and the default of a kind whose
floor is fixed (R158, R172). -/
def OperatingSet.ClassLaw (o : OperatingSet) : Prop :=
  o.classes.length = 27 ∧ ∀ k : FaultKind, k.leastClass.rank ≤ (o.classOf k).rank
    ∧ (k.floor = none → o.classOf k = k.defaultClass)

/-- The Active Fault Set holds at most one entry of a kind, in kind order, with a count from 1 to 255
and a class that is at least the kind's floor, or its default where that is fixed (R162). -/
def State.FaultLaw (s : State) : Prop :=
  (∀ o ∈ s.store.sets, o.ClassLaw)
    ∧ s.faults.Pairwise (fun a b => a.kind.code < b.kind.code)
    ∧ ∀ e ∈ s.faults, 1 ≤ e.count ∧ e.count ≤ 255 ∧ e.kind.leastClass.rank ≤ e.cls.rank
      ∧ (e.kind.floor = none → e.cls = e.kind.defaultClass)

/-- A locked store has no constant write cycle in flight (R189, R191). -/
def State.LockLaw (s : State) : Prop :=
  s.store.lock = true → ∀ n v, s.store.cycle ≠ .constant n v

/-- Between events the event's own marks are clear (the model's own). -/
def State.Quiet (s : State) : Prop := s.run.changed = false ∧ s.run.arbitrate = false

/-- Outside the supervised run states v_sup is 0 and neither overspeed condition holds (R121 to R123). -/
def State.SupervisionLaw (s : State) : Prop :=
  s.run.state.speedSupervised = false →
    s.prof.vSup = 0 ∧ s.prof.curve = false ∧ s.prof.limit = false

/-! ## The laws together -/

/-- The laws of outputs, run state, Run Record, Active Fault Set and reference, together. -/
structure State.RunLaws (s : State) : Prop where
  output : s.OutputLaw
  marks : s.MarkLaw
  standing : s.StandingLaw
  stop : s.StopLaw
  record : s.RecordLaw
  zero : s.ZeroLaw

/-- A whole number lies in a range. -/
def within (x : Int) (r : Int × Int) : Prop := r.1 ≤ x ∧ x ≤ r.2

/-- Every numeric field of an Operating Set lies in its range, and every list has its number of slots
(R5, R10, R12, R193, R195). -/
structure OperatingSet.RangeLaw (o : OperatingSet) : Prop where
  segSlots : o.segs.length = 48
  cpSlots : o.cps.length = 24
  filterSlots : o.filters.length = 14
  segCount : 1 ≤ o.segCount ∧ o.segCount ≤ 48
  cpCount : o.cpCount ≤ 24
  segs : ∀ g ∈ o.segs, within g.start (0, 4000000) ∧ within g.limit (300, 12000)
  cps : ∀ c ∈ o.cps, within c.pos (0, 4000000) ∧ within c.tol (50, 2000)
  stops : ∀ x : Stop, within (o.stopRec x).mark1 (0, 4000000)
    ∧ within (o.stopRec x).mark2 (0, 4000000) ∧ within (o.stopRec x).window (20, 500)
  settings : ∀ i r, settingRange i = some r → within (o.settings.get i) r
  filters : ∀ f ∈ o.filters, f.setMs ≤ 65535 ∧ f.clearMs ≤ 65535

/-- Every Operating Set in the store keeps its ranges, every Line Constant its own (R188), and a_run of
a run context lies between 120 and 1,500 mm/s² (R109). -/
structure State.RangeLaw (s : State) : Prop where
  sets : ∀ o ∈ s.store.sets, o.RangeLaw
  consts : ∀ n v, s.store.consts.get n = some v ∨ s.store.cycle = .constant n v → within v n.range
  decel : ∀ c, s.prof.ctx = some c → 120 ≤ c.aRun ∧ c.aRun ≤ 1500

/-- Every list of the state has the number of places that the manual gives it (R46, R175, R38). -/
def State.ShapeLaw (s : State) : Prop :=
  s.inputs.length = 32 ∧ s.slots.length = 14
    ∧ s.reck.zones.one.length = 24 ∧ s.reck.zones.two.length = 24

/-! ## Conditions on a state that statements take -/

/-- The part runs and stands between events. -/
def State.Ready (s : State) : Prop := s.held = false ∧ s.Quiet

/-- A party's receiver has taken the SYNC of a frame and takes the characters after it (R177, R181). -/
def State.Listens (s : State) (p : Party) : Prop :=
  (s.link p).rx = .inFrame [] ∧ (s.link p).blocked = false

/-- A party's link is UP and its receiver has taken the SYNC of a frame (R177, R181, R182). -/
def State.Hears (s : State) (p : Party) : Prop := s.linkUp p = true ∧ s.Listens p

/-- A command's characters come to a receiver that has not just taken a SYNC: it ignores them in HUNT,
unless one of them is a 0x5A, and otherwise takes them at the position at which it stands (R177). -/
def State.Astray (s : State) (c : Instr) : Prop :=
  ∃ p, c.sender = some p ∧ (s.link p).rx ≠ .inFrame []

/-- No block has anything to detect: every slot has taken its source's level, the wind flag is slot
9's output, no change of source and no terminal referencing is due, no overspeed condition holds in a
state that is not supervised (R121), and the Fault Handler has taken the conditions that hold. -/
structure State.AtRest (s : State) : Prop where
  slots : s.takeSources = s
  wind : s.prof.wind = s.out 9
  noFailover : ¬ (s.reck.source = .main ∧ s.out 0 = true ∧ s.out 1 = false)
  noReturn : s.reck.source = .main
  noReference : ¬ (s.reck.referenced = false ∧ s.run.standstill = true
    ∧ (s.out 5 != s.out 6) = true)
  speed : s.run.state.speedSupervised = false → s.prof.curve = false ∧ s.prof.limit = false
  conds : s.conds = s.holding

/-- Whether a report or an entry names car k. -/
def CarSet.has (a : CarSet) : Car → Bool
  | .one => a.one
  | .two => a.two

/-- No condition that a run state supervises would rise in RELEASING: neither car reports its doors
CLOSED or OPEN, no gate is reported OPEN on an UP loop link, the drive is ready by both sources, and
no overspeed condition holds (R90, R160). -/
structure State.ClearToMove (s : State) : Prop where
  doors : ∀ k : Car, (s.recs.car.get k).doors = .closedLocked ∨ (s.recs.car.get k).doors = .unknown
  gates : s.linkUp .loopStation = true → s.recs.loop.east ≠ .opened ∧ s.recs.loop.west ≠ .opened
  ready : s.recs.drive.ready = true
  line : s.out 13 = true
  slow : s.prof.curve = false ∧ s.prof.limit = false

/-! ## The forms of an answer -/

/-- The link of a party after a good frame on it while UP, `dt` µs on: its supervision timer runs its
timeout from now and its receiver is in HUNT (R177, R182). -/
def State.heardLink (s : State) (dt : Nat) (p : Party) : Link :=
  { s.link p with rx := .hunt, due := some (s.time + dt + s.timeout p) }

/-- A REPLY frame to a request of a type, with its TAG (R180). -/
def replyFrame (t : Byte) (tag : Byte) (r : Reply) : Frame :=
  ⟨MsgType.reply.code, replyPayload t tag r⟩

/-- The state after a good frame on an UP link that changes nothing but that link, on which the REPLY
is handed to the transmitter (R180). -/
def State.answered (s : State) (dt : Nat) (p : Party) (t tag : Byte) (r : Reply) : State :=
  { s with
    time := s.time + dt
    links := s.links.set p ((s.heardLink dt p).hand .reply [replyFrame t tag r]) }

end Sys2Proof.Machine
end

