-- ==== Sys2Proof/Certificates/Slice0/Obligations.lean ====
section
/-!
DEFINITION. The statements for the provers.  Each name says what its statement claims.
-/

open Sys2Proof Sys2Proof.Machine

/-! ## Steps and commands -/

/-- A step takes the command at the front of the queue and runs it on the state with the queue's
rest. -/
def Obligations.StepRunsFrontCommand : Prop :=
  ∀ (c : Instr) (rest : List Instr) (s : State), s.pending = c :: rest →
    step s = exec c { s with pending := rest }

/-- Every command completes, leaves the waiting commands as they are, and ends between events; a part
held in reset takes no command but RESET and HELD_IN_RESET, for it drives none of its outputs and no
timer runs (the model's reading, notes/assumptions/18.md). -/
def Obligations.EveryCommandCompletes : Prop :=
  ∀ (c : Instr) (s : State), ∃ t, exec c s = .next t ∧ t.pending = s.pending ∧ (s.Quiet → t.Quiet)
    ∧ (s.held = true → c ≠ .reset → (∀ dt, c ≠ .heldInReset dt) → t = s)

/-- What each record of the part changes by, apart from RESET: the inputs by a sampling instant, a count
by an edge of its channel, the published sample by the sample timer, a Line Constant, the lock and the
Operating Set by the end of their store cycles, the validity mark also by a COMMIT_EDIT, and a party
record by its party's message or loss (a load also by a constant write).  A frame whose characters come
to a receiver that has not just taken a SYNC is no such message: there a frame among them decides. -/
def Obligations.EachRecordHasItsCommands : Prop :=
  ∀ (c : Instr) (s t : State), c.wf = true → c ≠ .reset → exec c s = .next t →
    (t.held ≠ s.held → ∃ dt, c = .heldInReset dt)
    ∧ (t.inputs ≠ s.inputs → ∃ dt seen, c = .inputLevelChange dt seen)
    ∧ (∀ ch, (t.chan.get ch).count ≠ (s.chan.get ch).count → ∃ dt y, c = .encoderEdge dt ch y)
    ∧ (t.reck.sample ≠ s.reck.sample → ∃ dt, c = .sampleTimerExpiry dt)
    ∧ (t.store.consts ≠ s.store.consts → ∃ dt, c = .constantWriteComplete dt)
    ∧ (t.store.lock ≠ s.store.lock → ∃ dt, c = .lockCycleComplete dt)
    ∧ (t.store.active ≠ s.store.active ∨ t.store.stored ≠ s.store.stored →
      ∃ dt, c = .commitCycleComplete dt)
    ∧ (t.store.mark ≠ s.store.mark → s.Astray c ∨
      ∃ dt, c = .commitCycleComplete dt ∨ ∃ pl, c = .commitEdit dt pl)
    ∧ (∀ k, t.recs.car.get k ≠ s.recs.car.get k → s.Astray c ∨ ∃ dt,
      (∃ pl, c = .carState dt k pl) ∨ c = .linkTimeout dt k.party ∨ c = .constantWriteComplete dt)
    ∧ (t.recs.loop ≠ s.recs.loop → s.Astray c ∨
      ∃ dt, (∃ pl, c = .loopState dt pl) ∨ c = .linkTimeout dt .loopStation)
    ∧ (t.recs.drive ≠ s.recs.drive → s.Astray c ∨
      ∃ dt, (∃ pl, c = .driveState dt pl) ∨ c = .linkTimeout dt .drive)

/-! ## Reset and supply -/

/-- RESET without a validity mark (R200, R173, R78): every item takes its after-reset value, the
factory set is active, TABLE_INVALID alone is in the Active Fault Set, the state is FAULT_HELD, and
the constants, the lock and the stored copy stand. -/
def Obligations.ResetWithoutMark : Prop :=
  ∀ s : State, s.store.mark = false →
    exec .reset s = .next
      { State.reset with
        pending := s.pending
        store :=
          { s.store with active := OperatingSet.factory, staging := none, cycle := .idle } }

/-- RESET with a validity mark (R200, R157, R43, R58, R73, R80): the stored copy becomes active, no
edit is open and no cycle is in flight, and nothing of the former run, queue, reference or brakes is
left. -/
def Obligations.ResetWithMark : Prop :=
  ∀ s : State, s.store.mark = true → ∃ t, exec .reset s = .next t
    ∧ t.pending = s.pending ∧ t.held = false ∧ t.time = 0
    ∧ t.store = { s.store with active := s.store.stored, staging := none, cycle := .idle }
    ∧ t.tableInvalid = false
    ∧ t.inputs = List.replicate 32 false
    ∧ t.queue = [] ∧ t.shuttle = ⟨false, .onCall, 0, .down⟩
    ∧ t.run.counter = 0 ∧ t.run.record = none ∧ t.run.standstill = false ∧ t.target = none
    ∧ (t.run.state = .parked ∨ t.run.state = .faultHeld)
    ∧ t.reck.referenced = false ∧ t.reck.c = ⟨0, 0⟩ ∧ t.reck.miss = ⟨0, 0⟩
    ∧ t.prof.vRef = 0 ∧ t.prof.ctx = none
    ∧ t.brk = BrakeUnit.afterReset
    ∧ (∀ p, (t.link p).up = true ∧ (t.link p).rx = .hunt
      ∧ (t.link p).due = some (1000 * (s.store.stored.settings.timeoutMs p).toNat))
    ∧ t.recs.car = ⟨⟨.unknown, false, none⟩, ⟨.unknown, false, none⟩⟩
    ∧ t.recs.loop = ⟨.unknown, .unknown⟩ ∧ t.recs.drive = ⟨false, 0⟩

/-- HELD_IN_RESET de-energises all three outputs at that moment (R157, R175).  That it marks the part as
held, takes both brakes as applied and leaves all the rest, what retained memory holds included, is the
model's reading (notes/assumptions/18.md). -/
def Obligations.HeldInResetDropsOutputs : Prop :=
  ∀ (dt : Nat) (s : State), ∃ t, exec (.heldInReset dt) s = .next t
    ∧ t.brk.enable = false ∧ t.brk.service.output = false ∧ t.brk.emergency.output = false
    ∧ t = { s with time := s.time + dt, held := true, brk := BrakeUnit.afterReset }

/-! ## The field interface -/

/-- ENCODER_EDGE (R20): the edge adds or subtracts 1, is captured and is numbered, restarts its
channel's stall clock, and touches nothing else, the other channel's record included. -/
def Obligations.EncoderEdgeCounts : Prop :=
  ∀ (dt : Nat) (ch : Channel) (sense : Sense) (s : State), s.Ready →
    exec (.encoderEdge dt ch sense) s = .next
      { s with
        time := s.time + dt
        chan := s.chan.set ch
          { s.chan.get ch with
            count := (match sense with
              | .up => (s.chan.get ch).count + 1
              | .down => (s.chan.get ch).count - 1)
            edgeTime := some (BitVec.ofNat 32 (s.time + dt))
            edges := (s.chan.get ch).edges + 1
            stallFrom := s.time + dt } }

/-- INPUT_LEVEL_CHANGE (R175): 15 V or more is active, 5 V or less is inactive, a voltage between
leaves the level, and an input not seen at this instant keeps its level. -/
def Obligations.InputLevelsFollowVoltages : Prop :=
  ∀ (dt : Nat) (seen : List (Fin 32 × Nat)) (s : State), s.held = false → s.ShapeLaw →
    (seen.map (·.1)).Nodup →
    ∃ t, exec (.inputLevelChange dt seen) s = .next t
      ∧ (∀ n mv, (n, mv) ∈ seen → 15000 ≤ mv → t.input n = true)
      ∧ (∀ n mv, (n, mv) ∈ seen → mv ≤ 5000 → t.input n = false)
      ∧ (∀ n mv, (n, mv) ∈ seen → 5000 < mv → mv < 15000 → t.input n = s.input n)
      ∧ (∀ n, n ∉ seen.map (·.1) → t.input n = s.input n)
      ∧ t.store = s.store ∧ t.recs = s.recs ∧ t.time = s.time + dt

/-- A slot takes a new level of the input it is mapped to (R46, R47, R51): where the slot is enabled
with a count for that level above 0, its output stands and its timer runs that count, or is idle when
the level is back at the output; otherwise the output takes the level and the change flag is set where
it differs. -/
def Obligations.SlotTakesItsInput : Prop :=
  ∀ (dt : Nat) (n : Fin 32) (mv : Nat) (i : Nat) (sl : Slot) (s : State), s.held = false →
    s.ShapeLaw → s.slots[i]? = some sl → (s.store.active.filter i).source = .input n →
    sl.level = s.input n → levelOf mv (s.input n) ≠ s.input n →
    let level := levelOf mv (s.input n)
    let f := s.store.active.filter i
    let count := if level = true then f.setMs else f.clearMs
    ∃ t, exec (.inputLevelChange dt [(n, mv)]) s = .next t
      ∧ t.slots[i]? = some
        (if f.enabled = true ∧ 0 < count then
          { sl with
            level := level
            due := if level = sl.output then none else some (s.time + dt + 1000 * count) }
        else
          { output := level, level := level, due := none, flag := sl.flag || (sl.output != level) })

/-- A branch checkpoint's edge while UNREFERENCED ties the rope to the track (R35, R36): both channels
stand at the new s, corrections and miss counters are 0, and the referencing car's record for that
checkpoint is matched. -/
def Obligations.BranchEdgeReferences : Prop :=
  ∀ (dt : Nat) (n : Fin 32) (mv : Nat) (j : Nat) (c : Checkpoint) (k : Car) (s : State),
    s.held = false → s.ShapeLaw → s.reck.referenced = false → 15000 ≤ mv → s.input n = false →
    s.store.active.checkpoints[j]? = some c → j < 24 → c.input = n → c.branch.car = some k →
    (∀ i c', s.store.active.checkpoints[i]? = some c' → c'.input = n → i = j) →
    ∃ t, exec (.inputLevelChange dt [(n, mv)]) s = .next t
      ∧ t.reck.referenced = true ∧ t.reck.c = ⟨0, 0⟩ ∧ t.reck.miss = ⟨0, 0⟩
      ∧ t.reck.zone k j = .withinMatched ∧ t.reck.hasPrev = false
      ∧ ∀ ch, t.chanPos ch = (match k with
          | .one => c.pos + s.stretchAtTrack .one c.pos
          | .two => s.lr - c.pos - s.stretchAtTrack .two c.pos)

/-- A matched checkpoint edge (R39): the sole candidate's correction takes the difference, held within
C_max, its miss counter is 0 and its record is matched; the other car's stand. -/
def Obligations.MatchedEdgeCorrects : Prop :=
  ∀ (dt : Nat) (n : Fin 32) (mv : Nat) (j : Nat) (c : Checkpoint) (k : Car) (s : State),
    s.held = false → s.ShapeLaw → s.reck.referenced = true → s.reck.sample.referenced = true →
    15000 ≤ mv → s.input n = false → s.store.active.checkpoints[j]? = some c → j < 24 →
    c.input = n →
    (∀ i c', s.store.active.checkpoints[i]? = some c' → c'.input = n → i = j) →
    (s.advance dt).isCandidate c k = true → (s.advance dt).isCandidate c k.other = false →
    s.reck.zone k j ≠ .withinMatched →
    ∃ t, exec (.inputLevelChange dt [(n, mv)]) s = .next t
      ∧ t.reck.c.get k =
        clamp (s.reck.c.get k + (c.pos - (s.advance dt).edgePosition k))
          (-s.settings.cMax) s.settings.cMax
      ∧ t.reck.c.get k.other = s.reck.c.get k.other
      ∧ t.reck.miss.get k = 0 ∧ t.reck.miss.get k.other = s.reck.miss.get k.other
      ∧ t.reck.zone k j = .withinMatched

/-- An edge with no candidate or with two (R40) changes no correction, miss counter or zone record, and
its fault is in the Active Fault Set: WRONG_BRANCH where the other car stands at a branch checkpoint,
CHECKPOINT_MISMATCH otherwise, naming the cars. -/
def Obligations.UnmatchedEdgeFaults : Prop :=
  ∀ (dt : Nat) (n : Fin 32) (mv : Nat) (j : Nat) (c : Checkpoint) (s : State),
    s.held = false → s.reck.referenced = true → s.reck.sample.referenced = true →
    s.ShapeLaw → 15000 ≤ mv → s.input n = false →
    s.store.active.checkpoints[j]? = some c → c.input = n →
    (∀ i c', s.store.active.checkpoints[i]? = some c' → c'.input = n → i = j) →
    (s.advance dt).isCandidate c .one = (s.advance dt).isCandidate c .two →
    ∃ t, exec (.inputLevelChange dt [(n, mv)]) s = .next t
      ∧ t.reck.c = s.reck.c ∧ t.reck.miss = s.reck.miss ∧ t.reck.zones = s.reck.zones
      ∧ (∀ k, c.branch.car = some k → c.near ((s.advance dt).edgePosition k.other) = true →
        ∃ e ∈ t.faults, e.kind = .wrongBranch)
      ∧ (∀ k, c.branch.car = some k → c.near ((s.advance dt).edgePosition k.other) = false →
        ∃ e ∈ t.faults, e.kind = .checkpointMismatch ∧ e.cars.has k = true)
      ∧ (c.branch = .any →
        ∃ e ∈ t.faults, e.kind = .checkpointMismatch ∧ e.cars.one = true ∧ e.cars.two = true)

/-! ## Samples and supervision -/

/-- SAMPLE_TIMER_EXPIRY (R21, R23, R25, R33): the published sample carries s as the active channel's
position, v as that channel's speed formed at this expiry and at most 20,000 in magnitude, both reckoned
positions from s with stretch and correction, the referencing state and the sample time; the sample
timer is due 10 ms on; and the store, the records, the inputs and the STATUS timer stand. -/
def Obligations.SamplePublishesPosition : Prop :=
  ∀ (dt : Nat) (s : State), s.held = false → s.periods.sample ≤ s.time + dt →
    ∃ t, exec (.sampleTimerExpiry dt) s = .next t
      ∧ t.reck.sample.s = s.chanPos s.reck.source
      ∧ t.reck.sample.v = ((s.chan.get s.reck.source).sample (s.scale s.reck.source)
          (BitVec.ofNat 32 (s.time + dt))).speed
      ∧ mag t.reck.sample.v ≤ 20000
      ∧ t.reck.sample.p.one = s.rope - s.stretch .one s.rope + s.reck.c.one
      ∧ t.reck.sample.p.two = s.lr - s.rope - s.stretch .two s.rope + s.reck.c.two
      ∧ t.reck.sample.referenced = s.reck.referenced
      ∧ t.reck.sample.time = BitVec.ofNat 32 (s.time + dt)
      ∧ t.periods.sample = s.time + dt + 10000
      ∧ t.store = s.store ∧ t.recs = s.recs ∧ t.inputs = s.inputs
      ∧ t.periods.status = s.periods.status

/-- At each published sample one DRIVE_REFERENCE is handed to the drive's transmitter (R156).  It is
formed once the Run Controller has taken the sample (the model's choice, notes/assumptions/14.md): its
enable field is DRIVE ENABLE and its reference v_ref, as they then stand, or 0 while that field is false.
v_ref is signed by the run's direction and formed by the run state that the sample leaves: the former one
raised by a_acc but at most v_p in RUNNING, v_creep in FINAL_APPROACH, the former one lowered by a_run in
the ramps, and 0 otherwise (R115 to R119); a later consequence of the event can only set it to 0.  The
magnitude of what is sent is at most the greater of the latest v_p and v_creep, but for a ramp of a creep
lapse, which falls by a_run from the former reference (R115, R118).  In a supervised run state v_sup is the
greatest of v_p, v_creep while no target is held or d > d_f, the former v_sup less the fall of a_run, and
0 (R121), and stands so unless the event leaves the supervised states or begins a run.  |v| above v_sup + max(200, v_sup / 20) enters OVERSPEED_CURVE and |v| above
v_local × 115 / 100 OVERSPEED_LIMIT where its condition was false, and without that its condition is
false (R122, R123).  Outside the supervised states v_sup is 0 and neither condition holds. -/
def Obligations.ReferenceIsSentAndBounded : Prop :=
  ∀ (dt : Nat) (s : State), s.held = false → s.periods.sample ≤ s.time + dt →
    let c := (s.advance dt).reckonSample.permit.controlSample
    let former := mag c.prof.vRef
    let fall := c.aRun * 10 / 1000
    let size := match c.run.state, c.run.flavour, c.run.stopClass with
      | .running, _, _ => min c.prof.vP (former + c.settings.aAcc * 10 / 1000)
      | .finalApproach, _, _ => c.settings.vCreep
      | .suspending, _, _ => max 0 (min c.prof.vP (former - fall))
      | .settling, some .creepLapse, _ => max 0 (former - fall)
      | .faultStopping, _, some .serviceStop => max 0 (min c.prof.vP (former - fall))
      | _, _, _ => 0
    let creep := match c.distance with
      | some d => if c.settings.dF < d then c.settings.vCreep else 0
      | none => c.settings.vCreep
    let sup := max (max c.prof.vP creep) (max (c.prof.vSup - fall) 0)
    let curveTrips := sup + max 200 (sup / 20) < c.absV
    let limitTrips := c.prof.vLocal * 115 / 100 < c.absV
    ∃ t, exec (.sampleTimerExpiry dt) s = .next t
      ∧ t.brk.refEnable = c.brk.enable
      ∧ t.brk.refSpeed = (if c.brk.enable then c.runSign * size else 0)
      ∧ (t.prof.vRef = c.runSign * size ∨ t.prof.vRef = 0)
      ∧ (t.brk.refEnable = false → t.brk.refSpeed = 0)
      ∧ t.link .drive = (s.link .drive).hand .driveReference
          [⟨0x63, drivePayload t.brk.refEnable t.brk.refSpeed⟩]
      ∧ (s.RangeLaw → s.run.flavour ≠ some .creepLapse →
        mag t.brk.refSpeed ≤ max t.prof.vP t.settings.vCreep)
      ∧ (s.RangeLaw → s.run.flavour = some .creepLapse →
        mag t.brk.refSpeed ≤ max (max t.prof.vP t.settings.vCreep)
          (max 0 (mag s.prof.vRef - s.aRun * 10 / 1000)))
      ∧ (c.run.state.speedSupervised = true →
        (t.prof.vSup = sup ∨ t.prof.vSup = 0)
        ∧ (t.run.state.speedSupervised = true → t.run.counter = c.run.counter → t.prof.vSup = sup)
        ∧ (curveTrips → s.prof.curve = false → ∃ e ∈ t.faults, e.kind = .overspeedCurve)
        ∧ (limitTrips → s.prof.limit = false → ∃ e ∈ t.faults, e.kind = .overspeedLimit)
        ∧ (¬ curveTrips → t.prof.curve = false) ∧ (¬ limitTrips → t.prof.limit = false))
      ∧ (s.SupervisionLaw → t.SupervisionLaw)

/-- v_p is at most 12,000, v_local, v_tgt where it is formed, every boundary curve and every cap in
force, and it is one of them (R114). -/
def Obligations.PermittedSpeedIsLeast : Prop :=
  ∀ (s : State) (c : RunContext) (v : Option Int),
    let terms := 12000 :: s.prof.vLocal :: v.toList
      ++ (match s.distance, s.star with
          | some _, some t => s.boundaryTerms c t
          | _, _ => [])
      ++ s.caps c
    s.formPermitted c v ∈ terms ∧ ∀ x ∈ terms, s.formPermitted c v ≤ x

/-- isqrt(x) is the largest integer whose square is at most x (00_scope, Integer arithmetic). -/
def Obligations.IsqrtIsFloorRoot : Prop :=
  ∀ x : Int, 0 ≤ x →
    0 ≤ isqrt x ∧ isqrt x * isqrt x ≤ x ∧ x < (isqrt x + 1) * (isqrt x + 1)

/-- The derating takes one percent for each 250 kg of imbalance, at most 40 percent, so a_run lies
between 120 and 1,500 mm/s² (R109). -/
def Obligations.DecelerationIsBounded : Prop :=
  ∀ aCls imbalance : Int, 200 ≤ aCls → aCls ≤ 1500 → 0 ≤ imbalance →
    derate aCls imbalance = aCls * (100 - min 40 (imbalance / 250)) / 100
    ∧ 120 ≤ derate aCls imbalance ∧ derate aCls imbalance ≤ 1500

/-- The target of two exact targets (R129, R131): within 2W of each other the stop is SHARED, s* is
the midpoint rounded down, no car is favoured and both predicted errors are at most W; otherwise it is
SPLIT, s* is the favoured car's exact target, its error is 0 and the other's is more than 2W. -/
def Obligations.TargetSharesOrSplits : Prop :=
  ∀ (x : Stop) (s1 s2 w : Int) (list : List Entry), 0 ≤ w →
    let t := makeTarget x s1 s2 w list
    t.stop = x ∧ t.exact = ⟨s1, s2⟩
    ∧ t.perr.one = t.sStar - s1 ∧ t.perr.two = s2 - t.sStar
    ∧ (mag (s1 - s2) ≤ 2 * w → t.shared = true ∧ t.favoured = none
      ∧ 2 * t.sStar ≤ s1 + s2 ∧ s1 + s2 < 2 * t.sStar + 2
      ∧ mag t.perr.one ≤ w ∧ mag t.perr.two ≤ w)
    ∧ (2 * w < mag (s1 - s2) → t.shared = false ∧ ∃ k : Car, t.favoured = some k
      ∧ t.sStar = (PerCar.mk s1 s2).get k ∧ t.perr.get k = 0
      ∧ 2 * w < mag (t.perr.get k.other)
      ∧ k = ((list.filterMap (·.side.single)).head?.getD .one))

/-- The lookup of a position (R7): below 0 it is segment 0, at or above L_r the last segment in force,
and otherwise the segment of highest index whose start is at or below the position. -/
def Obligations.LookupFindsSegment : Prop :=
  ∀ (o : OperatingSet) (lr p : Int) (g : Segment), o.segments[0]? = some g → g.start = 0 →
    (p < 0 → o.lookup lr p = 0)
    ∧ (0 ≤ p → lr ≤ p → o.lookup lr p + 1 = o.segments.length)
    ∧ (0 ≤ p → p < lr →
      (∃ h, o.segments[o.lookup lr p]? = some h ∧ h.start ≤ p)
      ∧ ∀ i h, o.segments[i]? = some h → h.start ≤ p → i ≤ o.lookup lr p)

/-- Validation (R14): it reports an item that does not hold, every item below which holds, and passes
only a set for which all ten hold under the L_r as it stands; with L_r unset item 1 fails. -/
def Obligations.ValidationReportsFirstFailure : Prop :=
  ∀ (o : OperatingSet) (lr : Int),
    let items := [o.item1 lr, o.item2 lr, o.item3 lr, o.item4, o.item5 lr, o.item6 lr, o.item7 lr,
      o.item8, o.item9, o.item10]
    o.validate none = some 1
    ∧ (o.validate (some lr) = none ↔ ∀ b ∈ items, b = true)
    ∧ ∀ n, o.validate (some lr) = some n → 1 ≤ n ∧ n ≤ 10 ∧ items[n - 1]? = some false
      ∧ ∀ i, i < n - 1 → items[i]? = some true

/-- The standstill timer (R81): a sample at most 20 mm/s starts it with 500 ms unless it runs, a sample
above 20 mm/s stops it and ends standstill, and its expiry brings standstill where the latest sample
shows at most 20 mm/s; an expiry at the instant of a sample takes effect with that sample. -/
def Obligations.StandstillFollowsItsTimer : Prop :=
  (∀ (dt d : Nat) (s : State), s.Ready → s.run.standstillDue = some d → d ≤ s.time + dt →
    (s.time + dt < s.periods.sample → ∃ t, exec (.standstillTimerExpiry dt) s = .next t
      ∧ t.run.standstill = (s.run.standstill || decide (s.absV ≤ 20))
      ∧ t.run.standstillDue = none ∧ t.reck.sample = s.reck.sample)
    ∧ (s.periods.sample ≤ s.time + dt → ∃ t, exec (.standstillTimerExpiry dt) s = .next t
      ∧ t.run.standstill = s.run.standstill ∧ t.run.standstillHeld = true
      ∧ t.run.standstillDue = none ∧ t.reck.sample = s.reck.sample))
  ∧ ∀ (dt : Nat) (s : State), s.held = false → s.periods.sample ≤ s.time + dt →
    ∃ t, exec (.sampleTimerExpiry dt) s = .next t
      ∧ (20 < mag t.reck.sample.v → t.run.standstill = false ∧ t.run.standstillDue = none)
      ∧ (mag t.reck.sample.v ≤ 20 → s.run.standstillHeld = true →
        t.run.standstill = true ∧ t.run.standstillHeld = false)
      ∧ (mag t.reck.sample.v ≤ 20 → s.run.standstillHeld = false →
        t.run.standstill = s.run.standstill
        ∧ t.run.standstillDue = some ((s.run.standstillDue).getD (s.time + dt + 500000)))

/-- FILTER_TIMER_EXPIRY (R48, R51): a named slot whose timer is due takes the level it last took, its
timer is idle, and its change flag is set where the output changes.  The feedback source follows the
outputs of the stall slots as the expiry leaves them.  With MAIN_STALLED alone true it fails over to ALT,
which takes up s from MAIN, and FEEDBACK_FAILOVER is in the Active Fault Set (R28).  With both true it
stays MAIN and FEEDBACK_LOST is there, and so it is on ALT with ALT_STALLED true (R29).  While the
FEEDBACK_FAILOVER entry is there ALT stays; in PARKED without it and with MAIN_STALLED false the source
returns to MAIN, which takes up s from ALT, and so it does at the ACK_FAULT that removes the entry (R30). -/
def Obligations.FilterTimerSetsOutput : Prop :=
  (∀ (dt d : Nat) (slots : List (Fin 14)) (i : Fin 14) (n : Fin 32) (sl : Slot) (s : State),
    s.held = false → i ∈ slots → s.slots[i.val]? = some sl → sl.due = some d → d ≤ s.time + dt →
    (s.store.active.filter i.val).source = .input n → sl.level = s.input n →
    ∃ t, exec (.filterTimerExpiry dt slots) s = .next t
      ∧ t.slots[i.val]? = some
        { output := sl.level, level := sl.level, due := none
          flag := sl.flag || (sl.output != sl.level) })
  ∧ ∀ (dt : Nat) (slots : List (Fin 14)) (s : State), s.held = false → s.reck.referenced = true →
    s.takeSources = s →
    let out := ((s.advance dt).expireSlots slots).out
    let entered := fun (t : State) k => ∃ e ∈ t.faults, e.kind = k
    let returns := fun (t : State) => t.reck.source = .main ∧ t.prof.source = .main
      ∧ t.chanPos .main = s.chanPos .alt ∧ t.chanPos .alt = s.chanPos .alt
      ∧ t.reck.disagree = decide (mag (t.chanPos .main - t.chanPos .alt) > s.settings.disagree)
    (s.reck.source = .main → out 0 = true → out 1 = false →
      ∃ t, exec (.filterTimerExpiry dt slots) s = .next t
        ∧ t.reck.source = .alt ∧ t.prof.source = .alt ∧ entered t .feedbackFailover
        ∧ t.chanPos .alt = s.chanPos .main ∧ t.chanPos .main = s.chanPos .main
        ∧ t.reck.disagree = false ∧ t.reck.sample = s.reck.sample)
    ∧ (s.reck.source = .main → out 0 = true → out 1 = true → s.conds = s.holding →
      s.feedbackLost = false → ∃ t, exec (.filterTimerExpiry dt slots) s = .next t
        ∧ t.reck.source = .main ∧ t.chan = s.chan ∧ entered t .feedbackLost)
    ∧ (s.reck.source = .alt → entered s .feedbackFailover →
      ∃ t, exec (.filterTimerExpiry dt slots) s = .next t
        ∧ t.reck.source = .alt ∧ t.chan = s.chan
        ∧ (out 1 = true → s.conds = s.holding → s.feedbackLost = false → entered t .feedbackLost))
    ∧ (s.reck.source = .alt → ¬ entered s .feedbackFailover → s.run.state = .parked → s.RunLaws →
      out 0 = false → (s.store.active.filter 0).source ≠ .disagree →
      ∃ t, exec (.filterTimerExpiry dt slots) s = .next t ∧ returns t)
    ∧ ∀ (tag : Byte) (e : FaultEntry), s.Quiet → s.Hears .console → s.reck.source = .alt →
      s.fault .feedbackFailover = some e → e.reported = true → e.isPresent = false →
      s.run.state = .parked → s.out 0 = false → (s.store.active.filter 0).source ≠ .disagree →
      ∃ t, exec (.ackFault dt [tag, 9]) s = .next t ∧ returns t

/-! ## The run's timers and the brakes -/

/-- PREPARE_TIMER_EXPIRY in PREPARING (R72, R85): the run's served entries are gone from the queue,
which gains none, PREPARE_TIMEOUT is in the Active Fault Set and the creep hold is over.  With nothing
left waiting the line stands PARKED without a Run Record, and the run counter keeps the number of the
abandoned run. -/
def Obligations.PrepareTimeoutAbandonsRun : Prop :=
  ∀ (dt d : Nat) (r : RunRecord) (s : State), s.held = false → s.run.prepareDue = some d →
    d ≤ s.time + dt → s.run.state = .preparing → s.run.record = some r →
    ∃ t, exec (.prepareTimerExpiry dt) s = .next t
      ∧ (∃ e ∈ t.faults, e.kind = .prepareTimeout)
      ∧ (∀ e ∈ t.queue, e.id ∉ r.served)
      ∧ (t.queue.map (·.id)).Sublist (s.queue.map (·.id))
      ∧ t.run.creepDue = none ∧ t.store = s.store
      ∧ (s.AtRest → s.queue.all (fun e => r.served.contains e.id) = true → s.shuttle.active = false →
        s.FaultLaw → s.stopDemanded = false →
        t.run.state = .parked ∧ t.run.record = none ∧ t.run.prepareDue = none ∧ t.target = none
          ∧ t.run.counter = s.run.counter ∧ t.queue = [] ∧ t.brk = s.brk)

/-- DWELL_TIMER_EXPIRY (R95, R138): with both cars' doors and, at LOOP while the loop link is UP, both
gates reported CLOSED_LOCKED, and nothing waiting, DWELL ends in PARKED; while the loop link is LOST no
gate is asked for.  A door that is not so reported, and at LOOP with the loop link UP a gate that is not,
holds DWELL with the timer expired. -/
def Obligations.DwellTimerEndsDwell : Prop :=
  ∀ (dt d : Nat) (x : Stop) (s : State), s.held = false → s.AtRest → s.run.dwellDue = some d →
    d ≤ s.time + dt → s.run.state = .dwell → s.run.dwellStop = some x → s.stopDemanded = false →
    let gatesLocked := s.recs.loop.east = .closedLocked ∧ s.recs.loop.west = .closedLocked
    ∃ t, exec (.dwellTimerExpiry dt) s = .next t
      ∧ (s.recs.car.one.doors ≠ .closedLocked ∨ s.recs.car.two.doors ≠ .closedLocked
          ∨ (x = .loop ∧ s.linkUp .loopStation = true ∧ ¬ gatesLocked) →
        t.run.state = .dwell ∧ t.run.dwellStop = some x ∧ t.run.dwellDue = none
          ∧ t.queue = s.queue ∧ t.brk = s.brk)
      ∧ (s.recs.car.one.doors = .closedLocked → s.recs.car.two.doors = .closedLocked →
        (x = .loop → s.linkUp .loopStation = true → gatesLocked) →
        s.queue = [] → s.shuttle.active = false →
        t.run.state = .parked ∧ t.run.dwellStop = none ∧ t.run.dwellDue = none ∧ t.brk = s.brk
          ∧ t.doorRelease .one = false ∧ t.doorRelease .two = false)

/-- CREEP_HOLD_LAPSE (R101, R118): the hold is over; a moving creep run goes to SETTLING of flavour
creep lapse with its reference still standing. -/
def Obligations.CreepLapseSettles : Prop :=
  ∀ (dt d : Nat) (s : State), s.held = false → s.run.creepDue = some d → d ≤ s.time + dt →
    ∃ t, exec (.creepHoldLapse dt) s = .next t
      ∧ t.run.creepDue = none
      ∧ (s.AtRest → s.run.state = .running ∨ s.run.state = .finalApproach →
        s.run.standstill = false → s.brk.service.state = .released → s.stopDemanded = false →
        t.run.state = .settling ∧ t.run.flavour = some .creepLapse ∧ t.prof.vRef = s.prof.vRef
          ∧ t.run.record = s.run.record ∧ t.brk = s.brk)

/-- The brakes' deadlines (R145, R146, R154).  BRAKE_RELEASE_TIMEOUT names every brake whose release
deadline has passed, and where its entry's class is SERVICE_STOP or higher the line is stopping or held.
BRAKE_APPLY_TIMEOUT names every brake whose apply deadline has passed, and its EMERGENCY demand leaves
all three outputs de-energised. -/
def Obligations.BrakeDeadlinesReport : Prop :=
  (∀ (dt : Nat) (s : State), s.held = false →
    ((s.advance dt).dueBrakes .releasing).any = true →
    ∃ t, exec (.brakeReleaseDeadlineExpiry dt) s = .next t
      ∧ ∃ e ∈ t.faults, e.kind = .brakeReleaseTimeout
        ∧ (((s.advance dt).dueBrakes .releasing).service = true → e.brakes.service = true)
        ∧ (((s.advance dt).dueBrakes .releasing).emergency = true → e.brakes.emergency = true)
        ∧ (s.RunLaws → 0 < e.cls.rank → t.run.state.isFault = true))
  ∧ ∀ (dt : Nat) (s : State), s.held = false → s.RunLaws → s.FaultLaw →
    ((s.advance dt).dueBrakes .applying).any = true →
    ∃ t, exec (.brakeApplyDeadlineExpiry dt) s = .next t
      ∧ (∃ e ∈ t.faults, e.kind = .brakeApplyTimeout ∧ e.cls = .emergency
        ∧ (((s.advance dt).dueBrakes .applying).service = true → e.brakes.service = true)
        ∧ (((s.advance dt).dueBrakes .applying).emergency = true → e.brakes.emergency = true))
      ∧ t.brk.enable = false ∧ t.brk.service.output = false ∧ t.brk.emergency.output = false
      ∧ t.run.state.isFault = true

/-- EFFECTIVENESS_CHECK_EXPIRY (R149, R150, R154).  A check that finds |v| above max(20, v0 − a_min)
brings BRAKE_INEFFECTIVE naming its brakes, de-energises every output, and sets the rail brake demand
where it included the emergency brake.  Checks that find no more end with no effect, in FAULT_STOPPING as
in every other state that has nothing else to do: no BRAKE_INEFFECTIVE is entered and the rail brake
demand stands.  At the instant of a sample not yet published the checks wait for that sample. -/
def Obligations.EffectivenessCheckDecides : Prop :=
  ∀ (dt : Nat) (s : State), s.held = false →
    let stays := s.run.state = .parked ∨ s.run.state = .running ∨ s.run.state = .finalApproach
      ∨ s.run.state = .suspending ∨ s.run.state = .suspended
      ∨ (s.run.state = .faultHeld ∧ s.stopDemanded = true)
      ∨ (s.run.state = .faultStopping ∧ s.run.standstill = false
        ∧ (s.brk.enable = false ∨ s.brk.service.done = false ∨ s.brk.emergency.done = false)
        ∧ (s.run.stopClass = some .emergency ∨ s.run.stopClass = some .serviceStop
          ∨ (s.run.stopClass = some .quickStop ∧ s.settings.vCreep < s.absV)))
    (∀ c ∈ s.brk.checks, s.RunLaws → s.FaultLaw → s.time + dt < s.periods.sample →
      c.due ≤ s.time + dt → max 20 (c.v0 - s.settings.aMin) < s.absV →
      ∃ t, exec (.effectivenessCheckExpiry dt) s = .next t
        ∧ (∃ e ∈ t.faults, e.kind = .brakeIneffective ∧ e.cls = .emergency
          ∧ (c.brakes.service = true → e.brakes.service = true)
          ∧ (c.brakes.emergency = true → e.brakes.emergency = true))
        ∧ t.brk.enable = false ∧ t.brk.service.output = false ∧ t.brk.emergency.output = false
        ∧ (c.brakes.emergency = true → t.brk.rail = true))
    ∧ (s.time + dt < s.periods.sample →
      (∀ c ∈ s.brk.checks, c.due ≤ s.time + dt → s.absV ≤ max 20 (c.v0 - s.settings.aMin)) →
      s.AtRest → s.Quiet → stays →
      exec (.effectivenessCheckExpiry dt) s = .next
        { s with
          time := s.time + dt
          brk :=
            { s.brk with checks := s.brk.checks.filter fun c => decide (s.time + dt < c.due) } })
    ∧ (s.periods.sample ≤ s.time + dt → s.Quiet →
      exec (.effectivenessCheckExpiry dt) s = .next
        { s with
          time := s.time + dt
          brk :=
            { s.brk with
              checks := s.brk.checks.map fun c =>
                { c with elapsed := c.elapsed || decide (c.due ≤ s.time + dt) } } })

/-- QUICK_STOP_TIMER_EXPIRY (R153): both brakes are applied at the expiry, whatever the speed, and
above creep speed an effectiveness check starts for the brakes that were released. -/
def Obligations.QuickStopTimerApplies : Prop :=
  ∀ (dt d : Nat) (s : State), s.held = false → s.RunLaws → s.stopDemanded = true →
    s.brk.quickDue = some d → d ≤ s.time + dt →
    ∃ t, exec (.quickStopTimerExpiry dt) s = .next t
      ∧ t.brk.service.output = false ∧ t.brk.emergency.output = false
      ∧ (s.AtRest → s.brk.service.state = .released → s.brk.emergency.state = .released →
        s.brk.checks = [] → s.run.state = .faultStopping → s.run.stopClass = some .quickStop →
        s.settings.vCreep < s.absV → s.serviceOpen = true → s.emergencyOpen = true →
        s.brk.enable = true →
        t.brk.quickDue = none ∧ t.brk.enable = true
        ∧ t.brk.checks = [⟨⟨true, true⟩, s.absV, s.time + dt + 1000000, false⟩]
        ∧ t.brk.service.state = .applying ∧ t.brk.emergency.state = .applying
        ∧ t.run.state = .faultStopping)

/-! ## Links -/

/-- LINK_TIMEOUT (R161, R182 to R185): the link goes LOST with its timer idle, its party's record takes
its LOST values and the others stand, the console's loss discards an open edit, and no other link's state
or timer changes.  Where the Fault Handler had taken the conditions that hold, the fault of the loss is in
the Active Fault Set, and a car's loss names the car. -/
def Obligations.LinkTimeoutLosesLink : Prop :=
  ∀ (dt d : Nat) (p : Party) (s : State), s.held = false → (s.link p).due = some d →
    d ≤ s.time + dt → s.linkUp p = true →
    ∃ t, exec (.linkTimeout dt p) s = .next t
      ∧ (t.link p).up = false ∧ (t.link p).due = none
      ∧ (∀ q, q ≠ p → (t.link q).up = (s.link q).up ∧ (t.link q).due = (s.link q).due)
      ∧ t.recs = s.recs.lose p
      ∧ t.store = (if p = .console then { s.store with staging := none } else s.store)
      ∧ (s.conds = s.holding → ∃ e ∈ t.faults, match p with
        | .console => e.kind = .linkLostConsole
        | .drive => e.kind = .linkLostDrive
        | .loopStation => e.kind = .linkLostLoop
        | .car1 => e.kind = .linkLostCar ∧ e.cars.one = true
        | .car2 => e.kind = .linkLostCar ∧ e.cars.two = true)

/-- The characters that move a receiver (R177, R181): a 0x5A in HUNT starts a frame; each character of a
frame before its last is taken at its position; a LEN above 192, a missing stop bit and a gap each send
the receiver to HUNT; in HUNT every character but a 0x5A is ignored; while 32 REPLY frames wait no
character is taken; and nothing else changes. -/
def Obligations.CharactersMoveReceiver : Prop :=
  ∀ (dt : Nat) (p : Party) (s : State), s.Ready →
    let received := fun rx : Receiver =>
      { s with time := s.time + dt, links := s.links.set p { s.link p with rx := rx } }
    ((s.link p).rx = .hunt → (s.link p).blocked = false →
      exec (.frameStartSync dt p) s = .next (received (.inFrame [])))
    ∧ ((s.link p).blocked = true → exec (.frameStartSync dt p) s = .next
        { s with time := s.time + dt })
    ∧ (∀ (type : Byte) (pl : List Byte) (crc : BitVec 16) (n : Nat), s.Listens p → pl.length ≤ 192 →
      n < (frameChars type pl crc).length →
      (s.advance dt).takeChars p ((frameChars type pl crc).take n)
        = received (.inFrame ((frameChars type pl crc).take n)))
    ∧ (∀ type len : Byte, s.Listens p → 192 < len.toNat →
      exec (.lenAbove192 dt p ⟨type, len⟩) s = .next (received .hunt))
    ∧ (∀ type len : Byte, (s.link p).rx = .hunt → type ≠ 0x5A → len ≠ 0x5A →
      exec (.lenAbove192 dt p ⟨type, len⟩) s = .next { s with time := s.time + dt })
    ∧ (∀ (type : Byte) (pl : List Byte) (crc : BitVec 16), (s.link p).rx = .hunt →
      (0x5A : Byte) ∉ frameChars type pl crc →
      exec (.crcFailedFrame dt p type pl crc) s = .next { s with time := s.time + dt })
    ∧ exec (.missingStopBit dt p) s = .next (received .hunt)
    ∧ exec (.frameGapTimeout dt p) s = .next (received .hunt)

/-- Frames that no block but the Link Unit takes (R177, R179, R180).  A frame whose CRC does not agree is
discarded: it is not traffic and gets no REPLY.  A good frame of an unknown type is answered BAD_TYPE and
one that its party may not send NOT_PERMITTED, with its TYPE and TAG; it is traffic, and changes nothing
else. -/
def Obligations.LinkUnitRefusesFrames : Prop :=
  ∀ (dt : Nat) (p : Party) (type : Byte) (payload : List Byte) (s : State), s.Ready →
    payload.length ≤ 192 →
    (∀ crc, s.Listens p → crc ≠ crc16 (type :: BitVec.ofNat 8 payload.length :: payload) →
      exec (.crcFailedFrame dt p type payload crc) s = .next
        { s with
          time := s.time + dt
          links := s.links.set p { s.link p with rx := .hunt } })
    ∧ (s.Hears p → (∀ t : MsgType, t.code ≠ type) → exec (.badTypeFrame dt p type payload) s = .next
      (s.answered dt p type (payload.getD 0 0) { code := .badType }))
    ∧ (s.Hears p → ∀ t : MsgType, t.code = type → t.permitted p = false →
      exec (.notPermittedFrame dt p type payload) s = .next
        (s.answered dt p type (payload.getD 0 0) { code := .notPermitted }))

/-- While 32 REPLY frames wait on a link its receiver discards every character (R181): no frame of the
link's party is taken, whatever it is. -/
def Obligations.FullTransmitterTakesNoFrame : Prop :=
  ∀ (dt : Nat) (payload : List Byte) (s : State), s.Ready →
    ((s.link .console).blocked = true → ∀ c ∈ [Instr.run dt payload, .cancelEntry dt payload,
        .cancelAll dt payload, .cancelRun dt payload, .suspend dt payload, .resume dt payload,
        .creep dt payload, .shuttleStart dt payload, .shuttleEnd dt payload, .ackFault dt payload,
        .ackFaultAll dt payload, .openEdit dt payload, .writeItem dt payload, .readItem dt payload,
        .commitEdit dt payload, .abandonEdit dt payload, .writeConstant dt payload,
        .readConstant dt payload, .lockConstants dt payload],
      exec c s = .next { s with time := s.time + dt })
    ∧ (∀ k : Car, (s.link k.party).blocked = true →
      exec (.carState dt k payload) s = .next { s with time := s.time + dt })
    ∧ ((s.link .loopStation).blocked = true →
      exec (.loopState dt payload) s = .next { s with time := s.time + dt })
    ∧ ((s.link .drive).blocked = true →
      exec (.driveState dt payload) s = .next { s with time := s.time + dt })
    ∧ ∀ p, (s.link p).blocked = true →
      ∀ (type : Byte) (crc : BitVec 16), ∀ c ∈ [Instr.callLoop dt p payload,
          .badTypeFrame dt p type payload, .notPermittedFrame dt p type payload,
          .crcFailedFrame dt p type payload crc],
        exec c s = .next { s with time := s.time + dt }

/-- The transmitter (R181).  TRANSMIT_COMPLETE takes the link's next waiting frame, in order, and an idle
transmitter stays idle.  A message handed to an idle transmitter is sent at once, its further parts
behind those that wait.  While a frame is in sending it stays in sending, a REPLY joins the tail, and a
periodic message takes the place of the first waiting frame of its type, the other waiting frames of that
type leaving, or joins the tail where none of its type waits: the frames before and behind that place keep
theirs.  (That a STATUS of which one part still waits is replaced as a whole is the model's choice,
notes/assumptions/10.md.) -/
def Obligations.TransmitterKeepsOrder : Prop :=
  (∀ (dt : Nat) (p : Party) (s : State), s.Ready →
    (∀ f, (s.link p).sending = some f → exec (.transmitComplete dt p) s = .next
      { s with
        time := s.time + dt
        links := s.links.set p
          { s.link p with sending := (s.link p).waiting.head?, waiting := (s.link p).waiting.tail } })
    ∧ ((s.link p).sending = none →
      exec (.transmitComplete dt p) s = .next { s with time := s.time + dt }))
  ∧ ∀ (l : Link) (t : MsgType) (f : Frame) (more : List Frame),
    (l.sending = none →
      l.hand t (f :: more) = { l with sending := some f, waiting := l.waiting ++ more })
    ∧ (∀ g, l.sending = some g →
      l.hand .reply [f] = { l with waiting := l.waiting ++ [f] }
      ∧ ((∀ h ∈ l.waiting, h.type ≠ t.code) →
        l.hand t (f :: more) = { l with waiting := l.waiting ++ f :: more })
      ∧ ∀ pre old post, t ≠ .reply → l.waiting = pre ++ old :: post → old.type = t.code →
        (∀ h ∈ pre, h.type ≠ t.code) →
        l.hand t (f :: more)
          = { l with
              waiting := pre ++ f :: (more ++ post.filter fun h => decide (h.type ≠ t.code)) })

/-! ## Messages of the part -/

/-- STATUS_TIMER_EXPIRY (R51, R167, R186, 10.7): both parts, formed from the state at the expiry, are
handed to the console's transmitter in order, the timer is due 100 ms on, the flags of the slots carried
are cleared, and while the console link is UP every entry is marked reported.  Part 1 has 63 + 4n + 2k
bytes for n queue entries and k slot items, part 2 has 2 + 7n for n entries of the Active Fault Set, and
neither exceeds 192 while the queue and the set keep their laws. -/
def Obligations.StatusReportsState : Prop :=
  ∀ (dt : Nat) (s : State),
    (s.Ready → s.periods.status ≤ s.time + dt →
      exec (.statusTimerExpiry dt) s = .next
        { s with
          time := s.time + dt
          periods := { s.periods with status := s.time + dt + 100000 }
          links := s.links.set .console
            ((s.link .console).hand .status [⟨0x60, s.statusPart1⟩, ⟨0x60, s.statusPart2⟩])
          slots := s.slots.zipIdx.map fun (sl, i) =>
            if sl.flag = true ∧ (s.store.active.filter i).report = true then
              { sl with flag := false }
            else sl
          faults :=
            if (s.link .console).up = true then s.faults.map fun e => { e with reported := true }
            else s.faults })
    ∧ s.statusPart1.length = 63 + 4 * s.queue.length + 2 * s.carriedSlots.length
    ∧ s.statusPart2.length = 2 + 7 * s.faults.length
    ∧ (s.QueueLaw → s.FaultLaw → s.statusPart1.length ≤ 192 ∧ s.statusPart2.length ≤ 192)

/-- The period expiries of CAR_COMMAND and LOOP_COMMAND (R187): one message of the present fields is
handed to the party's transmitter and its timer is due 100 ms on. -/
def Obligations.PeriodsSendCommands : Prop :=
  ∀ (dt : Nat) (s : State), s.Ready →
    (∀ k : Car, s.periods.car.get k ≤ s.time + dt →
      exec (.carCommandPeriodExpiry dt k) s = .next
        { s with
          time := s.time + dt
          periods := { s.periods with car := s.periods.car.set k (s.time + dt + 100000) }
          links := s.links.set k.party ((s.link k.party).hand .carCommand
            [⟨0x61, (s.carTrigger k).payload s.absV⟩]) })
    ∧ (s.periods.loop ≤ s.time + dt →
      exec (.loopCommandPeriodExpiry dt) s = .next
        { s with
          time := s.time + dt
          periods := { s.periods with loop := s.time + dt + 100000 }
          links := s.links.set .loopStation ((s.link .loopStation).hand .loopCommand
            [⟨0x62, s.loopTrigger.payload⟩]) })

/-! ## State messages -/

/-- State messages (R182, R184, R185).  CAR_STATE: doors 0, 1 and 2 are CLOSED_LOCKED, CLOSED and OPEN
and any other code is OPEN, an emergency code but 0 is true, 0xFFFF is an unknown load and a load above
M_max is M_max.  LOOP_STATE: a gate code but 0 is OPEN.  DRIVE_STATE: a ready code of 1 is true and any
other false, and the fault code is taken as it is.  The other records and the store stand, and the link
is UP with its timer run from now. -/
def Obligations.StateMessagesSetRecords : Prop :=
  ∀ (dt : Nat) (a b h l : Byte) (s : State), s.held = false →
    (∀ k : Car, s.Listens k.party → ∃ t, exec (.carState dt k [a, b, h, l]) s = .next t
      ∧ t.recs = { s.recs with
          car := s.recs.car.set k
            { doors := if a = 0 then .closedLocked else if a = 1 then .closed else .opened
              emergency := decide (b ≠ 0)
              load :=
                if 256 * h.toNat + l.toNat = 65535 then none
                else some (min (256 * (h.toNat : Int) + l.toNat) (s.const .mMax)) } }
      ∧ (t.link k.party).up = true ∧ (t.link k.party).due = some (s.time + dt + s.timeout k.party)
      ∧ t.store = s.store)
    ∧ (s.Listens .loopStation → ∃ t, exec (.loopState dt [a, b]) s = .next t
      ∧ t.recs = { s.recs with
          loop := ⟨if a = 0 then .closedLocked else .opened,
            if b = 0 then .closedLocked else .opened⟩ }
      ∧ (t.link .loopStation).up = true
      ∧ (t.link .loopStation).due = some (s.time + dt + s.timeout .loopStation)
      ∧ t.store = s.store)
    ∧ (s.Listens .drive → ∃ t, exec (.driveState dt [a, b]) s = .next t
      ∧ t.recs = { s.recs with drive := ⟨decide (a = 1), b⟩ }
      ∧ (t.link .drive).up = true ∧ (t.link .drive).due = some (s.time + dt + s.timeout .drive)
      ∧ t.store = s.store)

/-- A good frame of the wrong length (R179): a state message is traffic whose content is discarded
without a REPLY, and a request is refused BAD_VALUE by the Link Unit before its owning block is reached;
nothing but the link changes. -/
def Obligations.WrongLengthIsNotDelivered : Prop :=
  ∀ (dt : Nat) (pl : List Byte) (s : State), s.Ready → pl.length ≤ 192 →
    (∀ k : Car, s.Hears k.party → pl.length ≠ 4 → exec (.carState dt k pl) s = .next
      { s with time := s.time + dt, links := s.links.set k.party (s.heardLink dt k.party) })
    ∧ (s.Hears .loopStation → pl.length ≠ 2 → exec (.loopState dt pl) s = .next
      { s with time := s.time + dt, links := s.links.set .loopStation (s.heardLink dt .loopStation) })
    ∧ (s.Hears .drive → pl.length ≠ 2 → exec (.driveState dt pl) s = .next
      { s with time := s.time + dt, links := s.links.set .drive (s.heardLink dt .drive) })
    ∧ (∀ p, MsgType.callLoop.permitted p = true → s.Hears p → pl.length ≠ 2 →
      exec (.callLoop dt p pl) s = .next
        (s.answered dt p 0x18 (pl.getD 0 0) { code := .badValue }))
    ∧ (s.Hears .console →
      ∀ x ∈ [(Instr.run dt pl, (0x10 : Byte), 3), (.cancelEntry dt pl, 0x11, 3),
          (.cancelAll dt pl, 0x11, 3), (.cancelRun dt pl, 0x11, 3), (.suspend dt pl, 0x12, 1),
          (.resume dt pl, 0x13, 1), (.creep dt pl, 0x14, 2), (.shuttleStart dt pl, 0x15, 4),
          (.shuttleEnd dt pl, 0x16, 1), (.ackFault dt pl, 0x17, 2), (.ackFaultAll dt pl, 0x17, 2),
          (.openEdit dt pl, 0x20, 1), (.readItem dt pl, 0x22, 4), (.commitEdit dt pl, 0x23, 1),
          (.abandonEdit dt pl, 0x24, 1), (.writeConstant dt pl, 0x28, 6),
          (.readConstant dt pl, 0x29, 2), (.lockConstants dt pl, 0x2A, 1)],
        pl.length ≠ x.2.2 →
          exec x.1 s = .next (s.answered dt .console x.2.1 (pl.getD 0 0) { code := .badValue }))
    ∧ (s.Hears .console →
      (∀ item, ItemClass.ofCode (pl.getD 1 0).toNat = some item → pl.length ≠ 4 + item.valueLen) →
      exec (.writeItem dt pl) s
        = .next (s.answered dt .console 0x21 (pl.getD 0 0) { code := .badValue }))

/-! ## Run requests -/

/-- The refusal that the checks of a run request give, in their order (R57): `valid` says whether its
fields are, `known` whether its identity is queued. -/
def runRefusal (s : State) (valid known : Bool) : Option ReplyCode :=
  if s.store.commissioning ≠ .locked then some .notCommissioned
  else if s.reck.referenced = false then some .notReferenced
  else if s.store.staging.isSome = true then some .editOpen
  else if s.store.cycle ≠ .idle then some .busy
  else if s.run.state = .faultStopping ∨ s.run.state = .faultHeld then some .faultActive
  else if valid = false then some .badValue
  else if known = false ∧ 6 ≤ s.queue.length then some .queueFull
  else none

/-- The kind of a RUN's code. -/
def runKind (k : Byte) : Option CallKind :=
  if k = 1 then some .stop else if k = 2 then some .through else none

/-- The stop of a stop code. -/
def runStop (x : Byte) : Option Stop :=
  if x = 1 then some .lower else if x = 2 then some .loop else if x = 3 then some .upper else none

/-- The candidate of a RUN of a kind and a stop code (R56); THROUGH with LOOP has no meaning. -/
def runFields (k x : Byte) : Option Ident :=
  match runKind k, runStop x with
  | some kind, some stop => if k = 2 ∧ x = 2 then none else some ⟨.console, kind, stop⟩
  | _, _ => none

/-- The candidate of a CALL_LOOP from a party with a side code (R56): a car's side is its branch. -/
def callFields (p : Party) (y : Byte) : Option (Ident × Side) :=
  match p with
  | .car1 => some (⟨.car1, .stop, .loop⟩, .east)
  | .car2 => some (⟨.car2, .stop, .loop⟩, .west)
  | _ =>
    if y = 1 then some (⟨.loopStation, .stop, .loop⟩, .east)
    else if y = 2 then some (⟨.loopStation, .stop, .loop⟩, .west)
    else if y = 3 then some (⟨.loopStation, .stop, .loop⟩, .both)
    else none

/-- The checks of a run request, in order (R57): the first that fails gives the refusal, and the
request changes no state. -/
def Obligations.RunRequestIsChecked : Prop :=
  ∀ (dt : Nat) (tag k x : Byte) (c : ReplyCode) (s : State), s.Ready →
    (s.Hears .console →
      runRefusal s (runFields k x).isSome
        (s.queue.any fun e => decide (some e.id = runFields k x)) = some c →
      exec (.run dt [tag, k, x]) s = .next (s.answered dt .console 0x10 tag { code := c }))
    ∧ ∀ p, MsgType.callLoop.permitted p = true → s.Hears p →
      runRefusal s (callFields p x).isSome
        (s.queue.any fun e => decide (some e.id = (callFields p x).map (·.1))) = some c →
      exec (.callLoop dt p [tag, x]) s = .next (s.answered dt p 0x18 tag { code := c })

/-- A run request, RUN or CALL_LOOP, that passes its checks outside PARKED and is not merged, its merge
test not made or failed (R59, R60, R66, R69): an entry of its identity takes the union of both sides, or
it joins the tail with its own side and, for the run's own target, the served-entry list; the REPLY is
ACCEPTED for a join and QUEUED for an entry added. -/
def Obligations.RunRequestIsQueued : Prop :=
  ∀ (dt : Nat) (tag k x : Byte) (id : Ident) (s : State), s.Ready → s.run.state ≠ .parked →
    runRefusal s true (s.queued id) = none →
    (s.mergeTested id.stop = true → isqrt (2 * s.aRun
      * max 0 (mag (s.starOf .loop - s.reck.sample.s) - s.settings.m)) < s.absV) →
    let taken := fun (p : Party) (type : Byte) (side : Side) =>
      if s.queued id = true then
        { s.answered dt p type tag { code := .accepted } with
          queue := s.queue.map fun e =>
            if e.id = id then { e with side := if e.side = side then side else .both } else e }
      else
        { s.answered dt p type tag { code := .queued } with
          queue := s.queue ++ [⟨id, side, false⟩]
          run := { s.run with
            record := s.run.record.map fun r =>
              if r.mode ≠ .creep ∧ r.target = some id.stop then
                { r with served := r.served ++ [id] }
              else r } }
    (s.Hears .console → runFields k x = some id →
      exec (.run dt [tag, k, x]) s = .next (taken .console 0x10 .both))
    ∧ ∀ p side, s.Hears p → MsgType.callLoop.permitted p = true → callFields p x = some (id, side) →
      exec (.callLoop dt p [tag, x]) s = .next (taken p 0x18 side)

/-- A CALL_LOOP, or a RUN of kind STOP for LOOP, that passes the merge test (R60, R66, R67): its entry is
taken into the queue, the run's target becomes LOOP with every queued LOOP entry served, the merged flag is
set, the direction and the mode stand, the car-approaching indication is true, and s* is formed for LOOP.
The REPLY is MERGED, handed to its link before the command message that the new target sends there (the
order is the model's choice, notes/assumptions/31.md). -/
def Obligations.LoopCallMerges : Prop :=
  ∀ (dt : Nat) (tag y : Byte) (r : RunRecord) (s : State), s.Ready →
    s.run.state = .running → s.run.record = some r → r.mode = .stop ∨ r.mode = .shuttle →
    r.target = some .lower ∨ r.target = some .upper → s.linkUp .loopStation = true →
    0 < (s.starOf .loop - s.reck.sample.s) * r.dir.sign →
    s.absV ≤ isqrt (2 * s.aRun
      * max 0 (mag (s.starOf .loop - s.reck.sample.s) - s.settings.m)) →
    let merged := fun (id : Ident) (side : Side) (t : State) =>
      (∃ r', t.run.record = some r' ∧ r'.target = some .loop ∧ r'.merged = true
        ∧ r'.mode = r.mode ∧ r'.dir = r.dir ∧ r'.number = r.number ∧ r'.frozen = r.frozen
        ∧ r'.served = (t.queue.filter fun e => decide (e.id.stop = .loop)).map (·.id)
        ∧ r'.sStar = t.target.map (·.sStar))
      ∧ t.queue = (if s.queued id = true then
          s.queue.map fun e =>
            if e.id = id then { e with side := if e.side = side then side else .both } else e
        else s.queue ++ [⟨id, side, false⟩])
      ∧ t.run.state = .running ∧ t.run.approaching = true
      ∧ (∃ h, t.target = some h ∧ h.stop = .loop)
      ∧ t.brk = s.brk ∧ t.store = s.store ∧ t.prof.vRef = s.prof.vRef
    (∀ p id side, s.Hears p → MsgType.callLoop.permitted p = true →
      callFields p y = some (id, side) → runRefusal s true (s.queued id) = none →
      let replied := (s.heardLink dt p).hand .reply [replyFrame 0x18 tag { code := .merged }]
      ∃ t, exec (.callLoop dt p [tag, y]) s = .next t ∧ merged id side t
        ∧ (∀ k : Car, p = k.party →
          t.link p = replied.hand .carCommand [⟨0x61, (t.carTrigger k).payload t.absV⟩])
        ∧ (p = .loopStation → t.link p = (if s.run.approaching = true then replied
          else replied.hand .loopCommand [⟨0x62, t.loopTrigger.payload⟩])))
    ∧ (s.Hears .console → runRefusal s true (s.queued ⟨.console, .stop, .loop⟩) = none →
      ∃ t, exec (.run dt [tag, 1, 2]) s = .next t ∧ merged ⟨.console, .stop, .loop⟩ .both t
        ∧ t.link .console = (s.heardLink dt .console).hand .reply
            [replyFrame 0x10 tag { code := .merged }])

/-- A RUN taken in PARKED with nothing else waiting starts its run (R57, R59, R62, R65, R82): the state
is PREPARING while car 1's doors are not locked, with the Run Record, the run counter and the prepare
timer that the rules give, and the entry waits in the queue. -/
def Obligations.RunRequestStartsRun : Prop :=
  ∀ (dt : Nat) (tag x : Byte) (stop : Stop) (s : State), s.held = false → s.Hears .console →
    s.AtRest → s.run.state = .parked → s.queue = [] → s.stopDemanded = false →
    s.store.commissioning = .locked → s.reck.referenced = true → s.store.staging = none →
    s.store.cycle = .idle → runStop x = some stop → s.linkUp .loopStation = true →
    s.recs.car.one.doors ≠ .closedLocked → s.standAt stop = false →
    ∃ t, exec (.run dt [tag, 1, x]) s = .next t
      ∧ t.run.state = .preparing
      ∧ t.run.counter = s.run.counter + 1
      ∧ t.run.prepareDue = some (s.time + dt + 1000000 * s.settings.prepareS.toNat)
      ∧ t.queue = [⟨⟨.console, .stop, stop⟩, .both, false⟩]
      ∧ (∃ r, t.run.record = some r ∧ r.number = s.run.counter + 1 ∧ r.mode = .stop
        ∧ r.dir = (if s.reck.sample.s < s.starOf stop then .up else .down)
        ∧ r.target = some stop ∧ r.served = [⟨.console, .stop, stop⟩] ∧ r.merged = false
        ∧ r.frozen = none)
      ∧ (∃ h, t.target = some h ∧ h.stop = stop)
      ∧ t.brk = s.brk
      ∧ t.link .console = (s.heardLink dt .console).hand .reply
          [replyFrame 0x10 tag { code := .accepted }]

/-! ## Cancels, suspend and resume, creep and shuttle -/

/-- CANCEL with scope ENTRY or ALL (R68).  A stop that is none of the three is refused BAD_VALUE.
Otherwise the CONSOLE entries named leave the queue and the served-entry list, the others stand, the REPLY
is ACCEPTED, and outside PARKED nothing else changes; in PARKED, where the cancel is an arbitration event,
none of them is left and no entry is added. -/
def Obligations.CancelRemovesConsoleCalls : Prop :=
  ∀ (dt : Nat) (tag x y : Byte) (s : State), s.Ready → s.Hears .console →
    let left := fun (gone : Entry → Bool) =>
      { s.answered dt .console 0x11 tag { code := .accepted } with
        queue := s.queue.filter fun e => !gone e
        run := { s.run with
          record := s.run.record.map fun r =>
            { r with
              served := r.served.filter fun id => !((s.queue.filter gone).map (·.id)).contains id } } }
    let ofConsole := fun (e : Entry) => decide (e.id.caller = .console)
    (runStop x = none → exec (.cancelEntry dt [tag, 1, x]) s
      = .next (s.answered dt .console 0x11 tag { code := .badValue }))
    ∧ (∀ stop, runStop x = some stop → s.run.state ≠ .parked →
      exec (.cancelEntry dt [tag, 1, x]) s
        = .next (left fun e => ofConsole e && decide (e.id.stop = stop)))
    ∧ (s.run.state ≠ .parked → exec (.cancelAll dt [tag, 2, y]) s = .next (left ofConsole))
    ∧ (∀ stop, runStop x = some stop → s.run.state = .parked →
      ∃ t, exec (.cancelEntry dt [tag, 1, x]) s = .next t
        ∧ (∀ e ∈ t.queue, ¬ (e.id.caller = .console ∧ e.id.stop = stop))
        ∧ (t.queue.map (·.id)).Sublist (s.queue.map (·.id)) ∧ t.store = s.store)
    ∧ (s.run.state = .parked → ∃ t, exec (.cancelAll dt [tag, 2, y]) s = .next t
      ∧ (∀ e ∈ t.queue, e.id.caller ≠ .console)
      ∧ (t.queue.map (·.id)).Sublist (s.queue.map (·.id)) ∧ t.store = s.store)

/-- CANCEL with scope RUN (R98): in SUSPENDED it ends the run, and where arbitration finds nothing to do
the line stands PARKED with no Run Record, the queue and the run counter as they were; in any other state
it is refused WRONG_STATE, and a scope that is none of the three BAD_VALUE. -/
def Obligations.CancelRunParks : Prop :=
  ∀ (dt : Nat) (tag z x : Byte) (s : State), s.Ready → s.Hears .console →
    (z ≠ 1 → z ≠ 2 → z ≠ 3 → exec (.cancelRun dt [tag, z, x]) s
      = .next (s.answered dt .console 0x11 tag { code := .badValue }))
    ∧ (s.run.state ≠ .suspended → exec (.cancelRun dt [tag, 3, x]) s
      = .next (s.answered dt .console 0x11 tag { code := .wrongState }))
    ∧ (s.run.state = .suspended → s.AtRest → s.oldestEligible = none → s.shuttle.active = false →
      ∃ t, exec (.cancelRun dt [tag, 3, x]) s = .next t
        ∧ t.run.state = .parked ∧ t.run.record = none ∧ t.run.counter = s.run.counter
        ∧ t.queue = s.queue ∧ t.shuttle = s.shuttle ∧ t.target = none ∧ t.prof.vRef = 0
        ∧ t.brk = s.brk ∧ t.faults = s.faults ∧ t.store = s.store
        ∧ t.link .console = (s.heardLink dt .console).hand .reply
            [replyFrame 0x11 tag { code := .accepted }])

/-- SUSPEND and RESUME (R96, R97).  SUSPEND takes a RUNNING run with a target to SUSPENDING, its Run
Record, target and reference kept; it is refused TOO_LATE in FINAL_APPROACH, and WRONG_STATE for a creep
run and in any other state.  RESUME takes SUSPENDED to RELEASING with all three outputs energised and the
Run Record and the run context kept; in any other state it is refused WRONG_STATE. -/
def Obligations.SuspendAndResume : Prop :=
  ∀ (dt : Nat) (tag : Byte) (s : State), s.Ready → s.Hears .console →
    (∀ r, s.run.state = .running → s.run.record = some r → r.mode ≠ .creep →
      ∃ t, exec (.suspend dt [tag]) s = .next t
        ∧ t.run.state = .suspending ∧ t.run.record = s.run.record ∧ t.target = s.target
        ∧ t.prof.vRef = s.prof.vRef ∧ t.prof.ctx = s.prof.ctx ∧ t.brk = s.brk
        ∧ t.queue = s.queue ∧ t.faults = s.faults ∧ t.store = s.store
        ∧ t.link .console = (s.heardLink dt .console).hand .reply
            [replyFrame 0x12 tag { code := .accepted }])
    ∧ (∀ r, s.run.state = .running → s.run.record = some r → r.mode = .creep →
      exec (.suspend dt [tag]) s
        = .next (s.answered dt .console 0x12 tag { code := .wrongState }))
    ∧ (s.run.state = .finalApproach → exec (.suspend dt [tag]) s
      = .next (s.answered dt .console 0x12 tag { code := .tooLate }))
    ∧ (s.run.state ≠ .running → s.run.state ≠ .finalApproach → exec (.suspend dt [tag]) s
      = .next (s.answered dt .console 0x12 tag { code := .wrongState }))
    ∧ (s.run.state = .suspended → s.AtRest → s.ClearToMove →
      ¬ (s.serviceOpen = true ∧ s.emergencyOpen = true) → s.brk.service.state = .applied →
      s.brk.emergency.state = .applied →
      ∃ t, exec (.resume dt [tag]) s = .next t
        ∧ t.run.state = .releasing ∧ t.run.record = s.run.record ∧ t.target = s.target
        ∧ t.prof.vRef = 0 ∧ t.prof.ctx = s.prof.ctx
        ∧ t.brk.enable = true ∧ t.brk.service.output = true ∧ t.brk.emergency.output = true
        ∧ t.queue = s.queue ∧ t.faults = s.faults ∧ t.store = s.store
        ∧ t.link .console = (s.heardLink dt .console).hand .reply
            [replyFrame 0x13 tag { code := .accepted }])
    ∧ (s.run.state ≠ .suspended → exec (.resume dt [tag]) s
      = .next (s.answered dt .console 0x13 tag { code := .wrongState }))

/-- The direction of a direction code. -/
def creepDirection (d : Byte) : Option Dir :=
  if d = 1 then some .up else if d = 2 then some .down else none

/-- The refusal that checks 1 to 5 of a CREEP give, in their order (R99). -/
def creepCheck (s : State) (d : Byte) : Option ReplyCode :=
  if s.store.commissioning = .unset then some .notCommissioned
  else if s.store.staging.isSome = true then some .editOpen
  else if s.store.cycle ≠ .idle then some .busy
  else if s.run.state = .faultStopping ∨ s.run.state = .faultHeld then some .faultActive
  else if creepDirection d = none then some .badValue
  else none

/-- The checks of a CREEP (R99) and the refresh (R100).  Checks 1 to 5 refuse in their order.  While a
creep run's hold runs, a CREEP in its direction restarts the hold timer with 300 ms and one in the other
direction is refused WRONG_STATE; so is a CREEP in PARKED with an entry queued, the shuttle active or no
stop strictly ahead, and a CREEP in any other state. -/
def Obligations.CreepIsChecked : Prop :=
  ∀ (dt : Nat) (tag d : Byte) (s : State), s.Ready → s.Hears .console →
    (∀ c, creepCheck s d = some c →
      exec (.creep dt [tag, d]) s = .next (s.answered dt .console 0x14 tag { code := c }))
    ∧ (∀ dir, creepCheck s d = none → creepDirection d = some dir →
      let refused := exec (.creep dt [tag, d]) s
        = .next (s.answered dt .console 0x14 tag { code := .wrongState })
      let creeping := fun r : RunRecord => s.run.record = some r ∧ r.mode = .creep
        ∧ (s.run.state = .preparing ∨ s.run.state = .releasing ∨ s.run.state = .running
          ∨ s.run.state = .finalApproach)
      (∀ r, creeping r → r.dir = dir → exec (.creep dt [tag, d]) s = .next
        { s.answered dt .console 0x14 tag { code := .accepted } with
          run := { s.run with creepDue := some (s.time + dt + 300000) } })
      ∧ (∀ r, creeping r → r.dir ≠ dir → refused)
      ∧ (s.run.state = .parked → s.queue ≠ [] ∨ s.shuttle.active = true
          ∨ (s.reck.referenced = true
            ∧ ∀ x, (s.starOf x - s.reck.sample.s) * dir.sign ≤ s.window x) → refused)
      ∧ (s.run.state ≠ .parked → (∀ r, ¬ creeping r) → refused))

/-- A CREEP that is accepted in PARKED starts a creep run (R65, R80, R82, R99, R100): while a car's doors
are not locked it stands in PREPARING with its number, its direction, an empty served-entry list, the
prepare timer and a creep hold of 300 ms; its target is the nearest stop strictly ahead, or absent while
UNREFERENCED. -/
def Obligations.CreepStartsRun : Prop :=
  ∀ (dt : Nat) (tag d : Byte) (dir : Dir) (s : State), s.held = false → s.Hears .console → s.AtRest →
    creepCheck s d = none → creepDirection d = some dir → s.run.state = .parked →
    s.run.record = none → s.queue = [] → s.shuttle.active = false →
    s.recs.car.one.doors ≠ .closedLocked →
    (s.reck.referenced = true → ∃ x, s.window x < (s.starOf x - s.reck.sample.s) * dir.sign) →
    ∃ t, exec (.creep dt [tag, d]) s = .next t
      ∧ t.run.state = .preparing ∧ t.run.counter = s.run.counter + 1
      ∧ t.run.prepareDue = some (s.time + dt + 1000000 * s.settings.prepareS.toNat)
      ∧ t.run.creepDue = some (s.time + dt + 300000)
      ∧ (∃ r, t.run.record = some r ∧ r.number = s.run.counter + 1 ∧ r.mode = .creep ∧ r.dir = dir
        ∧ r.served = [] ∧ r.merged = false ∧ r.frozen = none
        ∧ (s.reck.referenced = false → r.target = none ∧ r.origin = none)
        ∧ (s.reck.referenced = true → ∃ x, r.target = some x
          ∧ s.window x < (s.starOf x - s.reck.sample.s) * dir.sign
          ∧ (∀ y, s.window y < (s.starOf y - s.reck.sample.s) * dir.sign →
            (s.starOf x - s.reck.sample.s) * dir.sign ≤ (s.starOf y - s.reck.sample.s) * dir.sign)
          ∧ ∃ h, t.target = some h ∧ h.stop = x))
      ∧ t.queue = [] ∧ t.brk = s.brk ∧ t.faults = s.faults ∧ t.store = s.store
      ∧ t.link .console = (s.heardLink dt .console).hand .reply
          [replyFrame 0x14 tag { code := .accepted }]

/-- SHUTTLE_START and SHUTTLE_END (R74, R75).  The checks of SHUTTLE_START refuse in their order; an
accepted one writes the policy and the dwell, at most 600 s, and is answered ACCEPTED, or CLAMPED where the
dwell was above 600.  Outside PARKED it sets the active flag, keeps the last direction and changes nothing
else.  In PARKED it is an arbitration event (R61): the flag is set when that has been taken (where the
class of STOP_OUTSIDE_WINDOW stops nothing), and with the queue empty and car 1's doors not locked the
shuttle's run is PREPARING, to LOOP or to the terminal in the shuttle direction (R64).  SHUTTLE_END clears
the flag, and is refused WRONG_STATE where it is clear. -/
def Obligations.ShuttleRequestsSetRecord : Prop :=
  ∀ (dt : Nat) (tag p h l : Byte) (s : State), s.Ready → s.Hears .console →
    let policy : Option LoopPolicy := if p = 1 then some .always else if p = 2 then some .onCall else none
    let dwell : Int := 256 * (h.toNat : Int) + l.toNat
    let answer : Reply := { code := if 600 < dwell then .clamped else .accepted }
    let dir := s.shuttle.lastDir.opposite
    let beyond := fun x => (s.starOf x - s.reck.sample.s) * dir.sign
    (∀ c, runRefusal s policy.isSome true = some c → exec (.shuttleStart dt [tag, p, h, l]) s
      = .next (s.answered dt .console 0x15 tag { code := c }))
    ∧ (∀ q, policy = some q → runRefusal s true true = none →
      let record : Shuttle := ⟨true, q, min dwell 600, s.shuttle.lastDir⟩
      let goal := if q = .always ∧ s.linkUp .loopStation = true ∧ s.window .loop < beyond .loop
        then .loop else dir.terminal
      (s.run.state ≠ .parked → exec (.shuttleStart dt [tag, p, h, l]) s = .next
        { s.answered dt .console 0x15 tag answer with shuttle := record })
      ∧ ∃ t, exec (.shuttleStart dt [tag, p, h, l]) s = .next t
        ∧ t.shuttle.policy = q ∧ t.shuttle.dwell = min dwell 600 ∧ t.store = s.store
        ∧ t.link .console = (s.heardLink dt .console).hand .reply [replyFrame 0x15 tag answer]
        ∧ (s.AtRest → s.run.state = .parked →
          (s.store.active.classOf .stopOutsideWindow).rank = 0 → t.shuttle.active = true)
        ∧ (s.AtRest → s.run.state = .parked → s.stopDemanded = false → s.queue = [] →
          s.recs.car.one.doors ≠ .closedLocked → s.standAt goal = false →
          t.run.state = .preparing ∧ t.shuttle = record ∧ t.queue = []
            ∧ ∃ r, t.run.record = some r ∧ r.mode = .shuttle ∧ r.target = some goal ∧ r.served = []
              ∧ r.dir = (if s.reck.sample.s < s.starOf goal then .up else .down)))
    ∧ exec (.shuttleEnd dt [tag]) s = .next
        (if s.shuttle.active = true then
          { s.answered dt .console 0x16 tag { code := .accepted } with
            shuttle := { s.shuttle with active := false } }
        else s.answered dt .console 0x16 tag { code := .wrongState })

/-! ## Acknowledgement -/

/-- The refusal that the checks of an ACK_FAULT naming a kind give, in their order (R168). -/
def ackCheck (s : State) (k : Byte) : Option ReplyCode :=
  match s.faults.find? fun e => decide (e.kind.code = k.toNat) with
  | none => some .badValue
  | some e =>
    if e.reported = false then some .notReported
    else if e.isPresent = true then some .conditionPresent
    else if s.run.state = .parked ∨ s.run.state = .dwell ∨ s.run.state = .suspended
        ∨ s.run.state = .faultHeld then none
    else some .moving

/-- ACK_FAULT (R105, R168, R169).  Its checks refuse in their order and change nothing.  An accepted one
removes the entry of its kind: an entry of that kind in the set afterwards is a new one.  ACK_FAULT ALL
removes every entry that is reported and not present in PARKED, DWELL, SUSPENDED and FAULT_HELD, none in
the other seven states, and DETAIL counts them.  Where nothing else stands to be done, nothing else
changes, but that FAULT_HELD goes to PARKED, with the rail brake demand clear, when no entry of class
SERVICE_STOP or higher is left. -/
def Obligations.AcknowledgementRemovesEntries : Prop :=
  ∀ (dt : Nat) (tag k : Byte) (s : State), s.Ready → s.Hears .console →
    let rest := s.faults.filter fun e => decide (e.kind.code ≠ k.toNat)
    let stays := s.run.state = .parked ∨ s.run.state = .suspended
      ∨ (s.run.state = .dwell ∧ (s.run.dwellDue ≠ none ∨ s.recs.car.one.doors ≠ .closedLocked
        ∨ s.recs.car.two.doors ≠ .closedLocked))
    let eligible := fun e : FaultEntry => e.reported && !e.isPresent
    let parks := fun (t : State) (left : List FaultEntry) =>
      t.run.state = .parked ∧ t.run.record = none ∧ t.faults = left ∧ t.queue = []
        ∧ t.brk = { s.brk with rail := false }
    let removed : Reply := { code := .accepted, detail := (s.faults.filter eligible).length }
    (∀ c, k ≠ 0 → ackCheck s k = some c →
      exec (.ackFault dt [tag, k]) s = .next (s.answered dt .console 0x17 tag { code := c }))
    ∧ (k ≠ 0 → ackCheck s k = none → ∃ t, exec (.ackFault dt [tag, k]) s = .next t
      ∧ (∀ e ∈ t.faults, e.kind.code = k.toNat → e.reported = false)
      ∧ t.link .console = (s.heardLink dt .console).hand .reply
          [replyFrame 0x17 tag { code := .accepted }]
      ∧ (s.AtRest → stays ∨ (s.run.state = .faultHeld ∧ ∃ e ∈ rest, 0 < e.cls.rank) →
        t = { s.answered dt .console 0x17 tag { code := .accepted } with faults := rest })
      ∧ (s.AtRest → s.run.state = .faultHeld → (∀ e ∈ rest, e.cls.rank = 0) → s.queue = [] →
        s.shuttle.active = false → parks t rest))
    ∧ (s.AtRest → stays ∨ (s.run.state = .faultHeld
        ∧ ∃ e ∈ s.faults, eligible e = false ∧ 0 < e.cls.rank) →
      exec (.ackFaultAll dt [tag, 0]) s = .next
        { s.answered dt .console 0x17 tag removed with
          faults := s.faults.filter fun e => !eligible e })
    ∧ (s.AtRest → s.run.state = .faultHeld →
      (∀ e ∈ s.faults, eligible e = false → e.cls.rank = 0) → s.queue = [] →
      s.shuttle.active = false →
      ∃ t, exec (.ackFaultAll dt [tag, 0]) s = .next t
        ∧ parks t (s.faults.filter fun e => !eligible e)
        ∧ t.link .console = (s.heardLink dt .console).hand .reply [replyFrame 0x17 tag removed])
    ∧ (s.AtRest → s.run.state = .running ∨ s.run.state = .finalApproach ∨ s.run.state = .suspending
        ∨ (s.run.state = .preparing ∧ s.recs.car.one.doors ≠ .closedLocked)
        ∨ (s.run.state = .releasing ∧ s.brk.service.state ≠ .released)
        ∨ (s.run.state = .settling ∧ s.run.standstill = false ∧ s.brk.service.state ≠ .applied)
        ∨ (s.run.state = .faultStopping ∧ s.run.stopClass = some .serviceStop
          ∧ s.run.standstill = false ∧ s.brk.service.state ≠ .applied
          ∧ s.brk.service.ended = false) →
      exec (.ackFaultAll dt [tag, 0]) s = .next
        (s.answered dt .console 0x17 tag { code := .accepted, detail := 0 }))

/-! ## Configuration store -/

/-- OPEN_EDIT, ABANDON_EDIT and COMMIT_EDIT (R194, R197, R199), each with its checks in order: OPEN_EDIT
copies the active set to the staging copy, ABANDON_EDIT discards it, and COMMIT_EDIT either names the
failing validation item and leaves the edit open, or closes the edit and starts a commit cycle for the
staging copy.  That the validity mark is erased at the event that starts the cycle, and not a moment after
it, is the model's choice (notes/assumptions/11.md). -/
def Obligations.EditRequestsAreDecided : Prop :=
  ∀ (dt : Nat) (tag : Byte) (s : State), s.Ready → s.Hears .console →
    let told := fun (type : Byte) (c : ReplyCode) => s.answered dt .console type tag { code := c }
    exec (.openEdit dt [tag]) s = .next
      (if s.store.cycle ≠ .idle then told 0x20 .busy
      else if s.store.staging ≠ none then told 0x20 .editOpen
      else if s.run.state ≠ .parked ∧ s.run.state ≠ .faultHeld then told 0x20 .wrongState
      else if s.queue ≠ [] ∨ s.shuttle.active = true then told 0x20 .wrongState
      else { told 0x20 .accepted with store := { s.store with staging := some s.store.active } })
    ∧ (s.store.staging = none → exec (.abandonEdit dt [tag]) s = .next (told 0x24 .noEdit))
    ∧ (s.store.staging ≠ none →
      (s.run.state ≠ .parked → exec (.abandonEdit dt [tag]) s = .next
        { told 0x24 .accepted with store := { s.store with staging := none } })
      ∧ ∃ t, exec (.abandonEdit dt [tag]) s = .next t
        ∧ t.store = { s.store with staging := none })
    ∧ exec (.commitEdit dt [tag]) s = .next
      (if s.store.cycle ≠ .idle then told 0x23 .busy
      else match s.store.staging with
        | none => told 0x23 .noEdit
        | some o => match o.validate s.store.consts.lr with
          | some item => s.answered dt .console 0x23 tag { code := .invalidTable, detail := item }
          | none =>
            { told 0x23 .accepted with
              store := { s.store with staging := none, mark := false, cycle := .commit o } })

/-- WRITE_ITEM and READ_ITEM (R195, R196), for an item class code from 1 to 8 and values of its length: a
write without an open edit is refused NO_EDIT and is otherwise decided whole against the staging copy; a
read is refused BUSY while a store cycle is in flight and otherwise gives the item's values from the
staging copy while an edit is open and from the active copy otherwise; nothing else changes. -/
def Obligations.ItemRequestsAreDecided : Prop :=
  ∀ (dt : Nat) (tag c h l : Byte) (v : List Byte) (s : State), s.Ready → s.Hears .console →
    let i := 256 * h.toNat + l.toNat
    let told := fun (type : Byte) (r : Reply) => s.answered dt .console type tag r
    (∀ item, ItemClass.ofCode c.toNat = some item → v.length = item.valueLen →
      exec (.writeItem dt (tag :: c :: h :: l :: v)) s = .next
        (match s.store.staging with
        | none => told 0x21 { code := .noEdit }
        | some o => match o.writeItem item i v with
          | none => told 0x21 { code := .badValue }
          | some (o', code) =>
            { told 0x21 { code := code } with store := { s.store with staging := some o' } }))
    ∧ exec (.readItem dt [tag, c, h, l]) s = .next
      (if s.store.cycle ≠ .idle then told 0x22 { code := .busy }
      else match ItemClass.ofCode c.toNat with
        | none => told 0x22 { code := .badValue }
        | some item =>
          match (match s.store.staging with
            | some o => o
            | none => s.store.active).readItem item i with
          | none => told 0x22 { code := .badValue }
          | some bytes => told 0x22 { code := .accepted, value := bytes })

/-- An item written with ACCEPTED reads back as the bytes written (R195, R196), every bit of every field;
a write that is HELD leaves the set (R172); and no write changes what any other item reads as, or takes a
field out of its range or a class below its floor. -/
def Obligations.ItemsReadBackAsWritten : Prop :=
  ∀ (o : OperatingSet) (c : ItemClass) (i : Nat) (v : List Byte), o.RangeLaw → o.ClassLaw →
    v.length = c.valueLen →
    (o.readItem c i = none → o.writeItem c i v = none)
    ∧ ∀ o' code, o.writeItem c i v = some (o', code) →
      (code = .accepted → o'.readItem c i = some v)
      ∧ (code = .held → c = .class ∧ o' = o)
      ∧ (code = .accepted ∨ code = .clamped ∨ code = .held)
      ∧ o'.RangeLaw ∧ o'.ClassLaw
      ∧ ∀ c' j, c' ≠ c ∨ j ≠ i → o'.readItem c' j = o.readItem c' j

/-- WRITE_CONSTANT, READ_CONSTANT and LOCK_CONSTANTS (R189, R191, R192), each with its checks in order: an
accepted write starts a cycle for the value clamped into the constant's range and leaves the record, a
read carries the record or −1, and an accepted lock starts a lock cycle. -/
def Obligations.ConstantRequestsAreDecided : Prop :=
  ∀ (dt : Nat) (tag c b3 b2 b1 b0 : Byte) (s : State), s.Ready → s.Hears .console →
    let x : Int := (b3 ++ b2 ++ b1 ++ b0 : BitVec 32).toInt
    let told := fun (type : Byte) (r : ReplyCode) => s.answered dt .console type tag { code := r }
    exec (.writeConstant dt [tag, c, b3, b2, b1, b0]) s = .next
      (if s.store.cycle ≠ .idle then told 0x28 .busy
      else if s.store.lock = true then told 0x28 .locked
      else if s.store.staging ≠ none then told 0x28 .editOpen
      else if s.run.state ≠ .parked ∧ s.run.state ≠ .faultHeld then told 0x28 .wrongState
      else match ConstName.ofCode c.toNat with
        | none => told 0x28 .badValue
        | some n =>
          { told 0x28 (if n.range.1 ≤ x ∧ x ≤ n.range.2 then .accepted else .clamped) with
            store := { s.store with cycle := .constant n (max n.range.1 (min n.range.2 x)) } })
    ∧ exec (.readConstant dt [tag, c]) s = .next
      (if s.store.cycle ≠ .idle then told 0x29 .busy
      else match ConstName.ofCode c.toNat with
        | none => told 0x29 .badValue
        | some n => s.answered dt .console 0x29 tag
            { code := .accepted, value := putI32 ((s.store.consts.get n).getD (-1)) })
    ∧ exec (.lockConstants dt [tag]) s = .next
      (if s.store.cycle ≠ .idle then told 0x2A .busy
      else if s.store.lock = true then told 0x2A .locked
      else if s.store.consts.complete = false then told 0x2A .notCommissioned
      else if s.store.staging ≠ none then told 0x2A .editOpen
      else if s.run.state ≠ .parked ∧ s.run.state ≠ .faultHeld then told 0x2A .wrongState
      else match s.store.active.validate s.store.consts.lr with
        | some item => s.answered dt .console 0x2A tag { code := .invalidTable, detail := item }
        | none => { told 0x2A .accepted with store := { s.store with cycle := .lock } })

/-- The ends of a constant write cycle and of the lock cycle (R24, R184, R190, R191): the record holds the
written value, a lowered M_max lowers each recorded load above it, and a changed pulse scale keeps its
channel's position; the lock is set; the store is no longer BUSY.  With no such cycle in flight nothing
happens (the model's choice, notes/assumptions/1.md). -/
def Obligations.StoreCyclesComplete : Prop :=
  (∀ (dt : Nat) (s : State), s.held = false →
    (∀ n v, s.store.cycle = .constant n v → ∃ t, exec (.constantWriteComplete dt) s = .next t
      ∧ t.store = { s.store with consts := s.store.consts.put n v, cycle := .idle }
      ∧ t.store.consts.get n = some v ∧ (∀ m, m ≠ n → t.store.consts.get m = s.store.consts.get m)
      ∧ (n ≠ .mMax → t.recs = s.recs)
      ∧ (n = .mMax → ∀ k : Car, t.recs.car.get k =
        { s.recs.car.get k with load := (s.recs.car.get k).load.map fun x => min x v }))
    ∧ (s.store.cycle = .lock → ∃ t, exec (.lockCycleComplete dt) s = .next t
      ∧ t.store = { s.store with lock := true, cycle := .idle } ∧ t.recs = s.recs)
    ∧ (s.Quiet → (∀ n v, s.store.cycle ≠ .constant n v) →
      exec (.constantWriteComplete dt) s = .next { s with time := s.time + dt })
    ∧ (s.Quiet → s.store.cycle ≠ .lock →
      exec (.lockCycleComplete dt) s = .next { s with time := s.time + dt }))
  ∧ ∀ (s : State) (n : ConstName) (v : Int) (ch : Channel), n.channel = some ch →
    ((s.scaleRebase n v).modStore fun st => st.putConstant n v).chanPos ch = s.chanPos ch

/-- The end of a commit cycle (R198, R4, R39, R182): the committed set is stored with its validity mark
and is the active set, the store is no longer BUSY, the TABLE_INVALID condition is over, every link
supervision timer runs its new timeout, and each correction lies within the new C_max; a correction that
already did so stands.  The zone records are discarded. -/
def Obligations.CommitCompletes : Prop :=
  ∀ (dt : Nat) (o : OperatingSet) (s : State), s.held = false → s.store.cycle = .commit o →
    ∃ t, exec (.commitCycleComplete dt) s = .next t
      ∧ t.store = { s.store with stored := o, mark := true, active := o, cycle := .idle }
      ∧ t.tableInvalid = false
      ∧ (∀ p, (t.link p).up = (s.link p).up
        ∧ (t.link p).due = some (s.time + dt + 1000 * (o.settings.timeoutMs p).toNat))
      ∧ (0 ≤ o.settings.cMax → ∀ k, mag (t.reck.c.get k) ≤ o.settings.cMax)
      ∧ (s.reck.referenced = true → t.reck.hasPrev = false
        ∧ t.reck.zones = ⟨List.replicate 24 .outside, List.replicate 24 .outside⟩
        ∧ ∀ k, mag (s.reck.c.get k) ≤ o.settings.cMax → t.reck.c.get k = s.reck.c.get k)
      ∧ t.recs = s.recs ∧ t.inputs = s.inputs ∧ t.reck.sample = s.reck.sample

/-! ## Invariants -/

/-- Every step keeps the laws of outputs, run state, Run Record, Active Fault Set and reference: a release
output is energised only with DRIVE ENABLE (R140), DRIVE ENABLE is off in the standing states (5.1),
while an entry of class SERVICE_STOP or higher is in the set the state is FAULT_STOPPING or FAULT_HELD
(R103), a Run Record is present exactly in the states of a run (R78), an apply-ended mark belongs to a
brake in APPLYING (R141), and the reference is 0 while the rope is to stand (R115). -/
def Obligations.RunLawsKept : Prop :=
  ∀ s t : State, s.RunLaws → step s = .next t → t.RunLaws

/-- Every step keeps the Request Queue at no more than 6 entries, no two of one identity (R59), and every
list of the state at its number of places (R38, R46, R175). -/
def Obligations.QueueAndShapeKept : Prop :=
  ∀ s t : State, step s = .next t → (s.QueueLaw → t.QueueLaw) ∧ (s.ShapeLaw → t.ShapeLaw)

/-- Every step keeps at most one entry of a kind in the Active Fault Set, in kind order, with a count from
1 to 255 and a class no lower than the kind's floor, and every class table at or above the floors (R158,
R162, R172). -/
def Obligations.FaultLawKept : Prop := ∀ s t : State, s.FaultLaw → step s = .next t → t.FaultLaw

/-- Every step keeps each checkpoint correction within C_max (R39). -/
def Obligations.CorrectionLawKept : Prop :=
  ∀ s t : State, s.CorrectionLaw → step s = .next t → t.CorrectionLaw

/-- Every step keeps the ranges of the Operating Sets, the Line Constants and a_run (R109, R188, R193,
R195); and while the constants are locked no step changes a constant or clears the lock (R188, R191). -/
def Obligations.StoreLawsKept : Prop :=
  ∀ s t : State, step s = .next t →
    (s.RangeLaw → t.RangeLaw)
    ∧ (s.LockLaw → t.LockLaw)
    ∧ (s.LockLaw → s.store.lock = true →
      t.store.consts = s.store.consts ∧ t.store.lock = true)

/-- A part as delivered meets every law right after reset, with all three outputs off (R157, R200). -/
def Obligations.ResetMeetsLaws : Prop :=
  State.reset.RunLaws ∧ State.reset.QueueLaw ∧ State.reset.ShapeLaw ∧ State.reset.FaultLaw
    ∧ State.reset.CorrectionLaw ∧ State.reset.RangeLaw ∧ State.reset.LockLaw ∧ State.reset.Quiet
    ∧ State.reset.brk = BrakeUnit.afterReset ∧ State.reset.run.state = .faultHeld
end

