-- ==== Sys2Proof/Laws/State.lean ====
section
/-!
SUPPORT. What each named update of the state leaves and what it sets: one lemma per field, true by
unfolding.
-/

namespace Sys2Proof.Machine

/-! ## A passage of time -/

@[simp] theorem State.advance_pending (dt : Nat) (s : State) :
    (s.advance dt).pending = s.pending := rfl
@[simp] theorem State.advance_held (dt : Nat) (s : State) : (s.advance dt).held = s.held := rfl
@[simp] theorem State.advance_time (dt : Nat) (s : State) : (s.advance dt).time = s.time + dt := rfl
@[simp] theorem State.advance_inputs (dt : Nat) (s : State) :
    (s.advance dt).inputs = s.inputs := rfl
@[simp] theorem State.advance_chan (dt : Nat) (s : State) : (s.advance dt).chan = s.chan := rfl
@[simp] theorem State.advance_slots (dt : Nat) (s : State) : (s.advance dt).slots = s.slots := rfl
@[simp] theorem State.advance_reck (dt : Nat) (s : State) : (s.advance dt).reck = s.reck := rfl
@[simp] theorem State.advance_store (dt : Nat) (s : State) : (s.advance dt).store = s.store := rfl
@[simp] theorem State.advance_queue (dt : Nat) (s : State) : (s.advance dt).queue = s.queue := rfl
@[simp] theorem State.advance_shuttle (dt : Nat) (s : State) :
    (s.advance dt).shuttle = s.shuttle := rfl
@[simp] theorem State.advance_run (dt : Nat) (s : State) : (s.advance dt).run = s.run := rfl
@[simp] theorem State.advance_target (dt : Nat) (s : State) :
    (s.advance dt).target = s.target := rfl
@[simp] theorem State.advance_prof (dt : Nat) (s : State) : (s.advance dt).prof = s.prof := rfl
@[simp] theorem State.advance_brk (dt : Nat) (s : State) : (s.advance dt).brk = s.brk := rfl
@[simp] theorem State.advance_faults (dt : Nat) (s : State) :
    (s.advance dt).faults = s.faults := rfl
@[simp] theorem State.advance_conds (dt : Nat) (s : State) : (s.advance dt).conds = s.conds := rfl
@[simp] theorem State.advance_tableInvalid (dt : Nat) (s : State) :
    (s.advance dt).tableInvalid = s.tableInvalid := rfl
@[simp] theorem State.advance_links (dt : Nat) (s : State) : (s.advance dt).links = s.links := rfl
@[simp] theorem State.advance_recs (dt : Nat) (s : State) : (s.advance dt).recs = s.recs := rfl
@[simp] theorem State.advance_periods (dt : Nat) (s : State) :
    (s.advance dt).periods = s.periods := rfl

/-! ## A change of the Reckoner -/

@[simp] theorem State.modReck_pending (s : State) (f : Reckoner → Reckoner) :
    (s.modReck f).pending = s.pending := rfl
@[simp] theorem State.modReck_held (s : State) (f : Reckoner → Reckoner) :
    (s.modReck f).held = s.held := rfl
@[simp] theorem State.modReck_time (s : State) (f : Reckoner → Reckoner) :
    (s.modReck f).time = s.time := rfl
@[simp] theorem State.modReck_inputs (s : State) (f : Reckoner → Reckoner) :
    (s.modReck f).inputs = s.inputs := rfl
@[simp] theorem State.modReck_chan (s : State) (f : Reckoner → Reckoner) :
    (s.modReck f).chan = s.chan := rfl
@[simp] theorem State.modReck_slots (s : State) (f : Reckoner → Reckoner) :
    (s.modReck f).slots = s.slots := rfl
@[simp] theorem State.modReck_reck (s : State) (f : Reckoner → Reckoner) :
    (s.modReck f).reck = f s.reck := rfl
@[simp] theorem State.modReck_store (s : State) (f : Reckoner → Reckoner) :
    (s.modReck f).store = s.store := rfl
@[simp] theorem State.modReck_queue (s : State) (f : Reckoner → Reckoner) :
    (s.modReck f).queue = s.queue := rfl
@[simp] theorem State.modReck_shuttle (s : State) (f : Reckoner → Reckoner) :
    (s.modReck f).shuttle = s.shuttle := rfl
@[simp] theorem State.modReck_run (s : State) (f : Reckoner → Reckoner) :
    (s.modReck f).run = s.run := rfl
@[simp] theorem State.modReck_target (s : State) (f : Reckoner → Reckoner) :
    (s.modReck f).target = s.target := rfl
@[simp] theorem State.modReck_prof (s : State) (f : Reckoner → Reckoner) :
    (s.modReck f).prof = s.prof := rfl
@[simp] theorem State.modReck_brk (s : State) (f : Reckoner → Reckoner) :
    (s.modReck f).brk = s.brk := rfl
@[simp] theorem State.modReck_faults (s : State) (f : Reckoner → Reckoner) :
    (s.modReck f).faults = s.faults := rfl
@[simp] theorem State.modReck_conds (s : State) (f : Reckoner → Reckoner) :
    (s.modReck f).conds = s.conds := rfl
@[simp] theorem State.modReck_tableInvalid (s : State) (f : Reckoner → Reckoner) :
    (s.modReck f).tableInvalid = s.tableInvalid := rfl
@[simp] theorem State.modReck_links (s : State) (f : Reckoner → Reckoner) :
    (s.modReck f).links = s.links := rfl
@[simp] theorem State.modReck_recs (s : State) (f : Reckoner → Reckoner) :
    (s.modReck f).recs = s.recs := rfl
@[simp] theorem State.modReck_periods (s : State) (f : Reckoner → Reckoner) :
    (s.modReck f).periods = s.periods := rfl

/-! ## A change of a channel -/

@[simp] theorem State.modChan_pending (s : State) (ch : Channel) (f : ChannelRecord → ChannelRecord) :
    (s.modChan ch f).pending = s.pending := rfl
@[simp] theorem State.modChan_held (s : State) (ch : Channel) (f : ChannelRecord → ChannelRecord) :
    (s.modChan ch f).held = s.held := rfl
@[simp] theorem State.modChan_time (s : State) (ch : Channel) (f : ChannelRecord → ChannelRecord) :
    (s.modChan ch f).time = s.time := rfl
@[simp] theorem State.modChan_inputs (s : State) (ch : Channel) (f : ChannelRecord → ChannelRecord) :
    (s.modChan ch f).inputs = s.inputs := rfl
@[simp] theorem State.modChan_chan (s : State) (ch : Channel) (f : ChannelRecord → ChannelRecord) :
    (s.modChan ch f).chan = s.chan.set ch (f (s.chan.get ch)) := rfl
@[simp] theorem State.modChan_slots (s : State) (ch : Channel) (f : ChannelRecord → ChannelRecord) :
    (s.modChan ch f).slots = s.slots := rfl
@[simp] theorem State.modChan_reck (s : State) (ch : Channel) (f : ChannelRecord → ChannelRecord) :
    (s.modChan ch f).reck = s.reck := rfl
@[simp] theorem State.modChan_store (s : State) (ch : Channel) (f : ChannelRecord → ChannelRecord) :
    (s.modChan ch f).store = s.store := rfl
@[simp] theorem State.modChan_queue (s : State) (ch : Channel) (f : ChannelRecord → ChannelRecord) :
    (s.modChan ch f).queue = s.queue := rfl
@[simp] theorem State.modChan_shuttle (s : State) (ch : Channel) (f : ChannelRecord → ChannelRecord) :
    (s.modChan ch f).shuttle = s.shuttle := rfl
@[simp] theorem State.modChan_run (s : State) (ch : Channel) (f : ChannelRecord → ChannelRecord) :
    (s.modChan ch f).run = s.run := rfl
@[simp] theorem State.modChan_target (s : State) (ch : Channel) (f : ChannelRecord → ChannelRecord) :
    (s.modChan ch f).target = s.target := rfl
@[simp] theorem State.modChan_prof (s : State) (ch : Channel) (f : ChannelRecord → ChannelRecord) :
    (s.modChan ch f).prof = s.prof := rfl
@[simp] theorem State.modChan_brk (s : State) (ch : Channel) (f : ChannelRecord → ChannelRecord) :
    (s.modChan ch f).brk = s.brk := rfl
@[simp] theorem State.modChan_faults (s : State) (ch : Channel) (f : ChannelRecord → ChannelRecord) :
    (s.modChan ch f).faults = s.faults := rfl
@[simp] theorem State.modChan_conds (s : State) (ch : Channel) (f : ChannelRecord → ChannelRecord) :
    (s.modChan ch f).conds = s.conds := rfl
@[simp] theorem State.modChan_tableInvalid (s : State) (ch : Channel) (f : ChannelRecord → ChannelRecord) :
    (s.modChan ch f).tableInvalid = s.tableInvalid := rfl
@[simp] theorem State.modChan_links (s : State) (ch : Channel) (f : ChannelRecord → ChannelRecord) :
    (s.modChan ch f).links = s.links := rfl
@[simp] theorem State.modChan_recs (s : State) (ch : Channel) (f : ChannelRecord → ChannelRecord) :
    (s.modChan ch f).recs = s.recs := rfl
@[simp] theorem State.modChan_periods (s : State) (ch : Channel) (f : ChannelRecord → ChannelRecord) :
    (s.modChan ch f).periods = s.periods := rfl

/-! ## A change of the Profile Unit -/

@[simp] theorem State.modProf_pending (s : State) (f : Profile → Profile) :
    (s.modProf f).pending = s.pending := rfl
@[simp] theorem State.modProf_held (s : State) (f : Profile → Profile) :
    (s.modProf f).held = s.held := rfl
@[simp] theorem State.modProf_time (s : State) (f : Profile → Profile) :
    (s.modProf f).time = s.time := rfl
@[simp] theorem State.modProf_inputs (s : State) (f : Profile → Profile) :
    (s.modProf f).inputs = s.inputs := rfl
@[simp] theorem State.modProf_chan (s : State) (f : Profile → Profile) :
    (s.modProf f).chan = s.chan := rfl
@[simp] theorem State.modProf_slots (s : State) (f : Profile → Profile) :
    (s.modProf f).slots = s.slots := rfl
@[simp] theorem State.modProf_reck (s : State) (f : Profile → Profile) :
    (s.modProf f).reck = s.reck := rfl
@[simp] theorem State.modProf_store (s : State) (f : Profile → Profile) :
    (s.modProf f).store = s.store := rfl
@[simp] theorem State.modProf_queue (s : State) (f : Profile → Profile) :
    (s.modProf f).queue = s.queue := rfl
@[simp] theorem State.modProf_shuttle (s : State) (f : Profile → Profile) :
    (s.modProf f).shuttle = s.shuttle := rfl
@[simp] theorem State.modProf_run (s : State) (f : Profile → Profile) :
    (s.modProf f).run = s.run := rfl
@[simp] theorem State.modProf_target (s : State) (f : Profile → Profile) :
    (s.modProf f).target = s.target := rfl
@[simp] theorem State.modProf_prof (s : State) (f : Profile → Profile) :
    (s.modProf f).prof = f s.prof := rfl
@[simp] theorem State.modProf_brk (s : State) (f : Profile → Profile) :
    (s.modProf f).brk = s.brk := rfl
@[simp] theorem State.modProf_faults (s : State) (f : Profile → Profile) :
    (s.modProf f).faults = s.faults := rfl
@[simp] theorem State.modProf_conds (s : State) (f : Profile → Profile) :
    (s.modProf f).conds = s.conds := rfl
@[simp] theorem State.modProf_tableInvalid (s : State) (f : Profile → Profile) :
    (s.modProf f).tableInvalid = s.tableInvalid := rfl
@[simp] theorem State.modProf_links (s : State) (f : Profile → Profile) :
    (s.modProf f).links = s.links := rfl
@[simp] theorem State.modProf_recs (s : State) (f : Profile → Profile) :
    (s.modProf f).recs = s.recs := rfl
@[simp] theorem State.modProf_periods (s : State) (f : Profile → Profile) :
    (s.modProf f).periods = s.periods := rfl

/-! ## A change of the Brake and Drive Command Unit -/

@[simp] theorem State.modBrk_pending (s : State) (f : BrakeUnit → BrakeUnit) :
    (s.modBrk f).pending = s.pending := rfl
@[simp] theorem State.modBrk_held (s : State) (f : BrakeUnit → BrakeUnit) :
    (s.modBrk f).held = s.held := rfl
@[simp] theorem State.modBrk_time (s : State) (f : BrakeUnit → BrakeUnit) :
    (s.modBrk f).time = s.time := rfl
@[simp] theorem State.modBrk_inputs (s : State) (f : BrakeUnit → BrakeUnit) :
    (s.modBrk f).inputs = s.inputs := rfl
@[simp] theorem State.modBrk_chan (s : State) (f : BrakeUnit → BrakeUnit) :
    (s.modBrk f).chan = s.chan := rfl
@[simp] theorem State.modBrk_slots (s : State) (f : BrakeUnit → BrakeUnit) :
    (s.modBrk f).slots = s.slots := rfl
@[simp] theorem State.modBrk_reck (s : State) (f : BrakeUnit → BrakeUnit) :
    (s.modBrk f).reck = s.reck := rfl
@[simp] theorem State.modBrk_store (s : State) (f : BrakeUnit → BrakeUnit) :
    (s.modBrk f).store = s.store := rfl
@[simp] theorem State.modBrk_queue (s : State) (f : BrakeUnit → BrakeUnit) :
    (s.modBrk f).queue = s.queue := rfl
@[simp] theorem State.modBrk_shuttle (s : State) (f : BrakeUnit → BrakeUnit) :
    (s.modBrk f).shuttle = s.shuttle := rfl
@[simp] theorem State.modBrk_run (s : State) (f : BrakeUnit → BrakeUnit) :
    (s.modBrk f).run = s.run := rfl
@[simp] theorem State.modBrk_target (s : State) (f : BrakeUnit → BrakeUnit) :
    (s.modBrk f).target = s.target := rfl
@[simp] theorem State.modBrk_prof (s : State) (f : BrakeUnit → BrakeUnit) :
    (s.modBrk f).prof = s.prof := rfl
@[simp] theorem State.modBrk_brk (s : State) (f : BrakeUnit → BrakeUnit) :
    (s.modBrk f).brk = f s.brk := rfl
@[simp] theorem State.modBrk_faults (s : State) (f : BrakeUnit → BrakeUnit) :
    (s.modBrk f).faults = s.faults := rfl
@[simp] theorem State.modBrk_conds (s : State) (f : BrakeUnit → BrakeUnit) :
    (s.modBrk f).conds = s.conds := rfl
@[simp] theorem State.modBrk_tableInvalid (s : State) (f : BrakeUnit → BrakeUnit) :
    (s.modBrk f).tableInvalid = s.tableInvalid := rfl
@[simp] theorem State.modBrk_links (s : State) (f : BrakeUnit → BrakeUnit) :
    (s.modBrk f).links = s.links := rfl
@[simp] theorem State.modBrk_recs (s : State) (f : BrakeUnit → BrakeUnit) :
    (s.modBrk f).recs = s.recs := rfl
@[simp] theorem State.modBrk_periods (s : State) (f : BrakeUnit → BrakeUnit) :
    (s.modBrk f).periods = s.periods := rfl

/-! ## A change of the Run Controller -/

@[simp] theorem State.modRun_pending (s : State) (f : RunControl → RunControl) :
    (s.modRun f).pending = s.pending := rfl
@[simp] theorem State.modRun_held (s : State) (f : RunControl → RunControl) :
    (s.modRun f).held = s.held := rfl
@[simp] theorem State.modRun_time (s : State) (f : RunControl → RunControl) :
    (s.modRun f).time = s.time := rfl
@[simp] theorem State.modRun_inputs (s : State) (f : RunControl → RunControl) :
    (s.modRun f).inputs = s.inputs := rfl
@[simp] theorem State.modRun_chan (s : State) (f : RunControl → RunControl) :
    (s.modRun f).chan = s.chan := rfl
@[simp] theorem State.modRun_slots (s : State) (f : RunControl → RunControl) :
    (s.modRun f).slots = s.slots := rfl
@[simp] theorem State.modRun_reck (s : State) (f : RunControl → RunControl) :
    (s.modRun f).reck = s.reck := rfl
@[simp] theorem State.modRun_store (s : State) (f : RunControl → RunControl) :
    (s.modRun f).store = s.store := rfl
@[simp] theorem State.modRun_queue (s : State) (f : RunControl → RunControl) :
    (s.modRun f).queue = s.queue := rfl
@[simp] theorem State.modRun_shuttle (s : State) (f : RunControl → RunControl) :
    (s.modRun f).shuttle = s.shuttle := rfl
@[simp] theorem State.modRun_run (s : State) (f : RunControl → RunControl) :
    (s.modRun f).run = f s.run := rfl
@[simp] theorem State.modRun_target (s : State) (f : RunControl → RunControl) :
    (s.modRun f).target = s.target := rfl
@[simp] theorem State.modRun_prof (s : State) (f : RunControl → RunControl) :
    (s.modRun f).prof = s.prof := rfl
@[simp] theorem State.modRun_brk (s : State) (f : RunControl → RunControl) :
    (s.modRun f).brk = s.brk := rfl
@[simp] theorem State.modRun_faults (s : State) (f : RunControl → RunControl) :
    (s.modRun f).faults = s.faults := rfl
@[simp] theorem State.modRun_conds (s : State) (f : RunControl → RunControl) :
    (s.modRun f).conds = s.conds := rfl
@[simp] theorem State.modRun_tableInvalid (s : State) (f : RunControl → RunControl) :
    (s.modRun f).tableInvalid = s.tableInvalid := rfl
@[simp] theorem State.modRun_links (s : State) (f : RunControl → RunControl) :
    (s.modRun f).links = s.links := rfl
@[simp] theorem State.modRun_recs (s : State) (f : RunControl → RunControl) :
    (s.modRun f).recs = s.recs := rfl
@[simp] theorem State.modRun_periods (s : State) (f : RunControl → RunControl) :
    (s.modRun f).periods = s.periods := rfl

/-! ## A change of the Run Record -/

@[simp] theorem State.modRecord_pending (s : State) (f : RunRecord → RunRecord) :
    (s.modRecord f).pending = s.pending := rfl
@[simp] theorem State.modRecord_held (s : State) (f : RunRecord → RunRecord) :
    (s.modRecord f).held = s.held := rfl
@[simp] theorem State.modRecord_time (s : State) (f : RunRecord → RunRecord) :
    (s.modRecord f).time = s.time := rfl
@[simp] theorem State.modRecord_inputs (s : State) (f : RunRecord → RunRecord) :
    (s.modRecord f).inputs = s.inputs := rfl
@[simp] theorem State.modRecord_chan (s : State) (f : RunRecord → RunRecord) :
    (s.modRecord f).chan = s.chan := rfl
@[simp] theorem State.modRecord_slots (s : State) (f : RunRecord → RunRecord) :
    (s.modRecord f).slots = s.slots := rfl
@[simp] theorem State.modRecord_reck (s : State) (f : RunRecord → RunRecord) :
    (s.modRecord f).reck = s.reck := rfl
@[simp] theorem State.modRecord_store (s : State) (f : RunRecord → RunRecord) :
    (s.modRecord f).store = s.store := rfl
@[simp] theorem State.modRecord_queue (s : State) (f : RunRecord → RunRecord) :
    (s.modRecord f).queue = s.queue := rfl
@[simp] theorem State.modRecord_shuttle (s : State) (f : RunRecord → RunRecord) :
    (s.modRecord f).shuttle = s.shuttle := rfl
@[simp] theorem State.modRecord_run (s : State) (f : RunRecord → RunRecord) :
    (s.modRecord f).run = { s.run with record := s.run.record.map f } := rfl
@[simp] theorem State.modRecord_target (s : State) (f : RunRecord → RunRecord) :
    (s.modRecord f).target = s.target := rfl
@[simp] theorem State.modRecord_prof (s : State) (f : RunRecord → RunRecord) :
    (s.modRecord f).prof = s.prof := rfl
@[simp] theorem State.modRecord_brk (s : State) (f : RunRecord → RunRecord) :
    (s.modRecord f).brk = s.brk := rfl
@[simp] theorem State.modRecord_faults (s : State) (f : RunRecord → RunRecord) :
    (s.modRecord f).faults = s.faults := rfl
@[simp] theorem State.modRecord_conds (s : State) (f : RunRecord → RunRecord) :
    (s.modRecord f).conds = s.conds := rfl
@[simp] theorem State.modRecord_tableInvalid (s : State) (f : RunRecord → RunRecord) :
    (s.modRecord f).tableInvalid = s.tableInvalid := rfl
@[simp] theorem State.modRecord_links (s : State) (f : RunRecord → RunRecord) :
    (s.modRecord f).links = s.links := rfl
@[simp] theorem State.modRecord_recs (s : State) (f : RunRecord → RunRecord) :
    (s.modRecord f).recs = s.recs := rfl
@[simp] theorem State.modRecord_periods (s : State) (f : RunRecord → RunRecord) :
    (s.modRecord f).periods = s.periods := rfl

/-! ## A change of a link -/

@[simp] theorem State.modLink_pending (s : State) (p : Party) (f : Link → Link) :
    (s.modLink p f).pending = s.pending := rfl
@[simp] theorem State.modLink_held (s : State) (p : Party) (f : Link → Link) :
    (s.modLink p f).held = s.held := rfl
@[simp] theorem State.modLink_time (s : State) (p : Party) (f : Link → Link) :
    (s.modLink p f).time = s.time := rfl
@[simp] theorem State.modLink_inputs (s : State) (p : Party) (f : Link → Link) :
    (s.modLink p f).inputs = s.inputs := rfl
@[simp] theorem State.modLink_chan (s : State) (p : Party) (f : Link → Link) :
    (s.modLink p f).chan = s.chan := rfl
@[simp] theorem State.modLink_slots (s : State) (p : Party) (f : Link → Link) :
    (s.modLink p f).slots = s.slots := rfl
@[simp] theorem State.modLink_reck (s : State) (p : Party) (f : Link → Link) :
    (s.modLink p f).reck = s.reck := rfl
@[simp] theorem State.modLink_store (s : State) (p : Party) (f : Link → Link) :
    (s.modLink p f).store = s.store := rfl
@[simp] theorem State.modLink_queue (s : State) (p : Party) (f : Link → Link) :
    (s.modLink p f).queue = s.queue := rfl
@[simp] theorem State.modLink_shuttle (s : State) (p : Party) (f : Link → Link) :
    (s.modLink p f).shuttle = s.shuttle := rfl
@[simp] theorem State.modLink_run (s : State) (p : Party) (f : Link → Link) :
    (s.modLink p f).run = s.run := rfl
@[simp] theorem State.modLink_target (s : State) (p : Party) (f : Link → Link) :
    (s.modLink p f).target = s.target := rfl
@[simp] theorem State.modLink_prof (s : State) (p : Party) (f : Link → Link) :
    (s.modLink p f).prof = s.prof := rfl
@[simp] theorem State.modLink_brk (s : State) (p : Party) (f : Link → Link) :
    (s.modLink p f).brk = s.brk := rfl
@[simp] theorem State.modLink_faults (s : State) (p : Party) (f : Link → Link) :
    (s.modLink p f).faults = s.faults := rfl
@[simp] theorem State.modLink_conds (s : State) (p : Party) (f : Link → Link) :
    (s.modLink p f).conds = s.conds := rfl
@[simp] theorem State.modLink_tableInvalid (s : State) (p : Party) (f : Link → Link) :
    (s.modLink p f).tableInvalid = s.tableInvalid := rfl
@[simp] theorem State.modLink_links (s : State) (p : Party) (f : Link → Link) :
    (s.modLink p f).links = s.links.set p (f (s.links.get p)) := rfl
@[simp] theorem State.modLink_recs (s : State) (p : Party) (f : Link → Link) :
    (s.modLink p f).recs = s.recs := rfl
@[simp] theorem State.modLink_periods (s : State) (p : Party) (f : Link → Link) :
    (s.modLink p f).periods = s.periods := rfl

/-! ## A change of the store -/

@[simp] theorem State.modStore_pending (s : State) (f : Store → Store) :
    (s.modStore f).pending = s.pending := rfl
@[simp] theorem State.modStore_held (s : State) (f : Store → Store) :
    (s.modStore f).held = s.held := rfl
@[simp] theorem State.modStore_time (s : State) (f : Store → Store) :
    (s.modStore f).time = s.time := rfl
@[simp] theorem State.modStore_inputs (s : State) (f : Store → Store) :
    (s.modStore f).inputs = s.inputs := rfl
@[simp] theorem State.modStore_chan (s : State) (f : Store → Store) :
    (s.modStore f).chan = s.chan := rfl
@[simp] theorem State.modStore_slots (s : State) (f : Store → Store) :
    (s.modStore f).slots = s.slots := rfl
@[simp] theorem State.modStore_reck (s : State) (f : Store → Store) :
    (s.modStore f).reck = s.reck := rfl
@[simp] theorem State.modStore_store (s : State) (f : Store → Store) :
    (s.modStore f).store = f s.store := rfl
@[simp] theorem State.modStore_queue (s : State) (f : Store → Store) :
    (s.modStore f).queue = s.queue := rfl
@[simp] theorem State.modStore_shuttle (s : State) (f : Store → Store) :
    (s.modStore f).shuttle = s.shuttle := rfl
@[simp] theorem State.modStore_run (s : State) (f : Store → Store) :
    (s.modStore f).run = s.run := rfl
@[simp] theorem State.modStore_target (s : State) (f : Store → Store) :
    (s.modStore f).target = s.target := rfl
@[simp] theorem State.modStore_prof (s : State) (f : Store → Store) :
    (s.modStore f).prof = s.prof := rfl
@[simp] theorem State.modStore_brk (s : State) (f : Store → Store) :
    (s.modStore f).brk = s.brk := rfl
@[simp] theorem State.modStore_faults (s : State) (f : Store → Store) :
    (s.modStore f).faults = s.faults := rfl
@[simp] theorem State.modStore_conds (s : State) (f : Store → Store) :
    (s.modStore f).conds = s.conds := rfl
@[simp] theorem State.modStore_tableInvalid (s : State) (f : Store → Store) :
    (s.modStore f).tableInvalid = s.tableInvalid := rfl
@[simp] theorem State.modStore_links (s : State) (f : Store → Store) :
    (s.modStore f).links = s.links := rfl
@[simp] theorem State.modStore_recs (s : State) (f : Store → Store) :
    (s.modStore f).recs = s.recs := rfl
@[simp] theorem State.modStore_periods (s : State) (f : Store → Store) :
    (s.modStore f).periods = s.periods := rfl

/-! ## Values per car, channel and party -/

@[simp] theorem PerCar.get_set {α : Type} (x : PerCar α) (k j : Car) (a : α) :
    (x.set k a).get j = if j = k then a else x.get j := by cases k <;> cases j <;> rfl

@[simp] theorem PerChannel.get_set {α : Type} (x : PerChannel α) (c d : Channel) (a : α) :
    (x.set c a).get d = if d = c then a else x.get d := by cases c <;> cases d <;> rfl

@[simp] theorem PerParty.get_set {α : Type} (x : PerParty α) (p q : Party) (a : α) :
    (x.set p a).get q = if q = p then a else x.get q := by cases p <;> cases q <;> rfl

end Sys2Proof.Machine
end

