-- ==== Sys2Proof/Laws/Settling.lean ====
section
/-!
SUPPORT. What the settling of an event leaves and what it may change.  `Settles s t` says that from s
to t the queue may only lose entries, the Active Fault Set may only gain latches, the corrections stay
within their bound, and all that lies outside the blocks' reactions is unchanged.  Each operation of a
round has one lemma that says so.
-/

namespace Sys2Proof.Machine

/-! ## The relation -/

/-- The parts of the state that no reaction of the blocks changes. -/
structure Outer (s t : State) : Prop where
  pending : t.pending = s.pending
  held : t.held = s.held
  time : t.time = s.time
  inputs : t.inputs = s.inputs
  store : t.store = s.store
  tableInvalid : t.tableInvalid = s.tableInvalid
  links : t.links = s.links
  recs : t.recs = s.recs
  periods : t.periods = s.periods
  sample : t.reck.sample = s.reck.sample

theorem Outer.refl (s : State) : Outer s s := by constructor <;> rfl

theorem Outer.trans {s t u : State} (a : Outer s t) (b : Outer t u) : Outer s u where
  pending := b.pending.trans a.pending
  held := b.held.trans a.held
  time := b.time.trans a.time
  inputs := b.inputs.trans a.inputs
  store := b.store.trans a.store
  tableInvalid := b.tableInvalid.trans a.tableInvalid
  links := b.links.trans a.links
  recs := b.recs.trans a.recs
  periods := b.periods.trans a.periods
  sample := b.sample.trans a.sample

/-- An entry of the Active Fault Set as later latches and falls leave it (R164, R165). -/
structure Follows (e e' : FaultEntry) : Prop where
  kind : e'.kind = e.kind
  cls : e'.cls = e.cls
  firstTime : e'.firstTime = e.firstTime
  reported : e'.reported = e.reported
  cars : e.cars.join e'.cars = e'.cars
  brakes : e.brakes.join e'.brakes = e'.brakes

theorem CarSet.join_self (a : CarSet) : a.join a = a := by cases a; simp [CarSet.join]
theorem BrakeSet.join_self (a : BrakeSet) : a.join a = a := by cases a; simp [BrakeSet.join]

theorem CarSet.join_trans {a b c : CarSet} (h : a.join b = b) (g : b.join c = c) :
    a.join c = c := by
  rw [← g, ← h]; cases a; cases b; cases c
  simp only [CarSet.join, ← Bool.or_assoc, Bool.or_self]

theorem BrakeSet.join_trans {a b c : BrakeSet} (h : a.join b = b) (g : b.join c = c) :
    a.join c = c := by
  rw [← g, ← h]; cases a; cases b; cases c
  simp only [BrakeSet.join, ← Bool.or_assoc, Bool.or_self]

theorem Follows.refl (e : FaultEntry) : Follows e e :=
  ⟨rfl, rfl, rfl, rfl, CarSet.join_self _, BrakeSet.join_self _⟩

theorem Follows.trans {a b c : FaultEntry} (h : Follows a b) (g : Follows b c) : Follows a c where
  kind := g.kind.trans h.kind
  cls := g.cls.trans h.cls
  firstTime := g.firstTime.trans h.firstTime
  reported := g.reported.trans h.reported
  cars := CarSet.join_trans h.cars g.cars
  brakes := BrakeSet.join_trans h.brakes g.brakes

/-- The Active Fault Set is in kind order and every count lies in its range (R162). -/
def Ordered (fs : List FaultEntry) : Prop :=
  fs.Pairwise (fun a b => a.kind.code < b.kind.code) ∧ ∀ e ∈ fs, 1 ≤ e.count ∧ e.count ≤ 255

/-- The corrections lie within the bound in force (R39). -/
def State.Bounded (s : State) : Prop :=
  0 ≤ s.settings.cMax → ∀ k : Car, mag (s.reck.c.get k) ≤ s.settings.cMax

/-- What the settling of an event may do to the state outside the run itself. -/
structure Settles (s t : State) : Prop where
  outer : Outer s t
  queue : (t.queue.map (·.id)).Sublist (s.queue.map (·.id))
  old : ∀ e ∈ s.faults, ∃ e' ∈ t.faults, Follows e e'
  new : ∀ e' ∈ t.faults, (∃ e ∈ s.faults, Follows e e') ∨
    (e'.reported = false ∧ e'.cls = s.store.active.classOf e'.kind)
  ordered : Ordered s.faults → Ordered t.faults
  bounded : s.Bounded → t.Bounded

theorem Settles.same {s t : State} (o : Outer s t) (hq : t.queue = s.queue)
    (hf : t.faults = s.faults) (hc : t.reck.c = s.reck.c) : Settles s t where
  outer := o
  queue := by rw [hq]
  old e he := ⟨e, by rw [hf]; exact he, Follows.refl e⟩
  new e he := .inl ⟨e, by rw [hf] at he; exact he, Follows.refl e⟩
  ordered h := by rw [hf]; exact h
  bounded h := by
    simp only [State.Bounded, State.settings, o.store, hc] at h ⊢; exact h

theorem Settles.refl (s : State) : Settles s s := Settles.same (Outer.refl s) rfl rfl rfl

theorem Settles.trans {s t u : State} (a : Settles s t) (b : Settles t u) : Settles s u where
  outer := a.outer.trans b.outer
  queue := b.queue.trans a.queue
  old e he := by
    obtain ⟨e', h', f⟩ := a.old e he
    obtain ⟨e'', h'', g⟩ := b.old e' h'
    exact ⟨e'', h'', f.trans g⟩
  new e he := by
    rcases b.new e he with ⟨e', h', f⟩ | ⟨h1, h2⟩
    · rcases a.new e' h' with ⟨e'', h'', g⟩ | ⟨g1, g2⟩
      · exact .inl ⟨e'', h'', g.trans f⟩
      · exact .inr ⟨f.reported.trans g1, by rw [f.cls, g2, f.kind]⟩
    · exact .inr ⟨h1, by rw [h2, a.outer.store]⟩
  ordered h := b.ordered (a.ordered h)
  bounded h := b.bounded (a.bounded h)

/-! ## The named updates -/

theorem State.modProf_settles (s : State) (f : Profile → Profile) : Settles s (s.modProf f) :=
  Settles.same (by constructor <;> rfl) rfl rfl rfl

theorem State.modBrk_settles (s : State) (f : BrakeUnit → BrakeUnit) : Settles s (s.modBrk f) :=
  Settles.same (by constructor <;> rfl) rfl rfl rfl

theorem State.modRun_settles (s : State) (f : RunControl → RunControl) : Settles s (s.modRun f) :=
  Settles.same (by constructor <;> rfl) rfl rfl rfl

theorem State.modRecord_settles (s : State) (f : RunRecord → RunRecord) :
    Settles s (s.modRecord f) := Settles.same (by constructor <;> rfl) rfl rfl rfl

theorem State.modChan_settles (s : State) (ch : Channel) (f : ChannelRecord → ChannelRecord) :
    Settles s (s.modChan ch f) := Settles.same (by constructor <;> rfl) rfl rfl rfl

theorem State.modReck_settles (s : State) (f : Reckoner → Reckoner)
    (hs : (f s.reck).sample = s.reck.sample) (hc : (f s.reck).c = s.reck.c) :
    Settles s (s.modReck f) :=
  Settles.same (by constructor <;> first | rfl | exact hs) rfl rfl hc

/-- An update of the blocks' own parts that leaves queue, faults and Reckoner. -/
theorem Settles.blocks (s : State) (chan : PerChannel ChannelRecord) (slots : List Slot)
    (shuttle : Shuttle) (run : RunControl) (target : Option HeldTarget) (prof : Profile)
    (brk : BrakeUnit) (conds : List Cond) :
    Settles s { s with
      chan := chan, slots := slots, shuttle := shuttle, run := run, target := target, prof := prof
      brk := brk, conds := conds } := Settles.same (by constructor <;> rfl) rfl rfl rfl

end Sys2Proof.Machine
end

