-- ==== Sys2Proof/Laws/Rounds.lean ====
section
/-!
SUPPORT. Every operation of a round settles (`Settles`): one lemma each, from the small orders up to
`State.settle`.
-/

namespace Sys2Proof.Machine

/-! ## Targets and profile -/

theorem State.formTarget_settles (s : State) (x : Stop) : Settles s (s.formTarget x) :=
  Settles.same (by constructor <;> rfl) rfl rfl rfl

theorem State.reformTarget_settles (s : State) : Settles s s.reformTarget := by
  unfold State.reformTarget; split
  · split
    · exact Settles.refl s
    · exact s.formTarget_settles _
  · exact Settles.refl s

theorem State.createContext_settles (s : State) (r : RunRecord) : Settles s (s.createContext r) := by
  unfold State.createContext; exact s.modProf_settles _

theorem State.retarget_settles (s : State) (p : PerCar Int) (x : Int) :
    Settles s (s.retarget p x) := s.modProf_settles _

theorem State.permit_settles (s : State) : Settles s s.permit := by
  unfold State.permit; simp only; split
  · exact (s.modProf_settles _).trans (State.modProf_settles _ _)
  · exact (s.modProf_settles _).trans (State.modProf_settles _ _)

theorem State.formReference_settles (s : State) : Settles s s.formReference := s.modProf_settles _

theorem State.supervise_settles (s : State) : Settles s s.supervise := by
  unfold State.supervise; split
  · exact s.modProf_settles _
  · exact Settles.refl s

/-! ## Brakes and drive -/

theorem State.startCheck_settles (s : State) (b : BrakeSet) : Settles s (s.startCheck b) := by
  unfold State.startCheck; simp only; split
  · exact s.modBrk_settles _
  · exact Settles.refl s

theorem State.apply_settles (s : State) (b : BrakeSet) : Settles s (s.apply b) :=
  (s.modBrk_settles _).trans (State.startCheck_settles _ _)

theorem State.release_settles (s : State) : Settles s s.release := s.modBrk_settles _

theorem State.enableDrive_settles (s : State) : Settles s s.enableDrive := s.modBrk_settles _

theorem State.disableDrive_settles (s : State) : Settles s s.disableDrive :=
  (s.apply_settles _).trans (State.modBrk_settles _ _)

theorem State.emergencyDemand_settles (s : State) : Settles s s.emergencyDemand :=
  (s.apply_settles _).trans (State.modBrk_settles _ _)

theorem State.classApply_settles (s : State) : Settles s s.classApply :=
  (s.apply_settles _).trans (State.modBrk_settles _ _)

theorem State.brakeFeedback_settles (s : State) (old : List Slot) :
    Settles s (s.brakeFeedback old) := by
  unfold State.brakeFeedback; simp only; split <;> split
  · exact (s.modBrk_settles _).trans ((State.apply_settles _ _).trans (State.apply_settles _ _))
  · exact (s.modBrk_settles _).trans (State.apply_settles _ _)
  · exact (s.modBrk_settles _).trans (State.apply_settles _ _)
  · exact s.modBrk_settles _

/-! ## Run states -/

theorem State.enterState_settles (s : State) (st : RunState) (f : Option Flavour)
    (c : Option StopClass) : Settles s (s.enterState st f c) :=
  Settles.same (by constructor <;> rfl) rfl rfl rfl

theorem State.clearCalls_settles (s : State) : Settles s s.clearCalls where
  outer := by constructor <;> rfl
  queue := by simp [State.clearCalls]
  old e he := ⟨e, he, Follows.refl e⟩
  new e he := .inl ⟨e, he, Follows.refl e⟩
  ordered h := h
  bounded h := h

theorem State.dropRun_settles (s : State) : Settles s s.dropRun := s.modRun_settles _

theorem State.startClass_settles (s : State) (c : StopClass) : Settles s (s.startClass c) := by
  unfold State.startClass; split
  · exact s.modBrk_settles _
  · exact s.modBrk_settles _
  · exact Settles.refl s

theorem State.enterFaultStopping_settles (s : State) (c : StopClass) :
    Settles s (s.enterFaultStopping c) :=
  ((s.clearCalls_settles.trans (State.dropRun_settles _)).trans
    (State.enterState_settles _ _ _ _)).trans (State.startClass_settles _ _)

theorem State.enterFaultHeld_settles (s : State) : Settles s s.enterFaultHeld :=
  (s.clearCalls_settles.trans (State.dropRun_settles _)).trans (State.enterState_settles _ _ _ _)

theorem State.raiseClass_settles (s : State) (c : StopClass) : Settles s (s.raiseClass c) :=
  (s.enterState_settles _ _ _).trans (State.startClass_settles _ _)

theorem State.reactToFault_settles (s : State) (c : StopClass) : Settles s (s.reactToFault c) := by
  unfold State.reactToFault; split
  all_goals first
    | exact s.enterFaultHeld_settles
    | exact s.enterFaultStopping_settles _
    | exact Settles.refl s
    | (split
       · exact s.raiseClass_settles _
       · exact Settles.refl s)

/-! ## Faults -/

theorem FaultEntry.relatch_follows (e : FaultEntry) (r : Report) : Follows e (e.relatch r) where
  kind := rfl
  cls := rfl
  firstTime := rfl
  reported := rfl
  cars := by simp [FaultEntry.relatch, CarSet.join]
  brakes := by simp [FaultEntry.relatch, BrakeSet.join]

theorem mem_insertFault {e f : FaultEntry} {fs : List FaultEntry} :
    f ∈ insertFault e fs ↔ f = e ∨ f ∈ fs := by
  induction fs with
  | nil => simp [insertFault]
  | cons g rest ih =>
    unfold insertFault; split
    · simp
    · simp [ih]; constructor <;> (rintro (h | h | h) <;> simp [h])

theorem insertFault_ordered {e : FaultEntry} {fs : List FaultEntry}
    (h : fs.Pairwise (fun a b => a.kind.code < b.kind.code)) (hn : ∀ f ∈ fs, f.kind ≠ e.kind)
    (hc : ∀ a b : FaultKind, a.code = b.code → a = b) :
    (insertFault e fs).Pairwise (fun a b => a.kind.code < b.kind.code) := by
  induction fs with
  | nil => simp [insertFault]
  | cons g rest ih =>
    rw [List.pairwise_cons] at h
    unfold insertFault; split
    · rename_i hlt
      refine List.pairwise_cons.2 ⟨?_, List.pairwise_cons.2 h⟩
      intro f hf
      rcases List.mem_cons.1 hf with rfl | hf
      · exact hlt
      · exact Nat.lt_trans hlt (h.1 f hf)
    · rename_i hge
      refine List.pairwise_cons.2 ⟨?_, ih h.2 fun f hf => hn f (List.mem_cons_of_mem _ hf)⟩
      intro f hf
      rcases mem_insertFault.1 hf with rfl | hf
      · have : g.kind ≠ f.kind := hn g List.mem_cons_self
        have : g.kind.code ≠ f.kind.code := fun h' => this (hc _ _ h')
        omega
      · exact h.1 f hf

/-- No two kinds have one code (R158). -/
theorem FaultKind.code_injective (a b : FaultKind) (h : a.code = b.code) : a = b := by
  cases a <;> cases b <;> first | rfl | (exact absurd h (by decide))

theorem State.fault_eq_none {s : State} {k : FaultKind} :
    s.fault k = none ↔ ∀ e ∈ s.faults, e.kind ≠ k := by simp [State.fault]

theorem State.latch_settles (s : State) (r : Report) : Settles s (s.latch r) := by
  unfold State.latch; split
  · refine ⟨by constructor <;> rfl, List.Sublist.refl _, ?_, ?_, ?_, fun h => h⟩
    · intro e he
      refine ⟨_, List.mem_map_of_mem he, ?_⟩
      split
      · exact e.relatch_follows r
      · exact Follows.refl e
    · intro e' he'
      obtain ⟨e, he, rfl⟩ := List.mem_map.1 he'
      refine .inl ⟨e, he, ?_⟩
      split
      · exact e.relatch_follows r
      · exact Follows.refl e
    · rintro ⟨h1, h2⟩
      refine ⟨?_, ?_⟩
      · refine List.pairwise_map.2 (h1.imp ?_)
        intro a b hab
        split <;> split <;> exact hab
      · intro e' he'
        obtain ⟨e, he, rfl⟩ := List.mem_map.1 he'
        have := h2 e he
        split
        · simp only [FaultEntry.relatch]; omega
        · exact this
  · rename_i hn
    refine ⟨by constructor <;> rfl, List.Sublist.refl _, ?_, ?_, ?_, fun h => h⟩
    · intro e he
      exact ⟨e, mem_insertFault.2 (.inr he), Follows.refl e⟩
    · intro e he
      rcases mem_insertFault.1 he with rfl | he
      · exact .inr ⟨rfl, rfl⟩
      · exact .inl ⟨e, he, Follows.refl e⟩
    · rintro ⟨h1, h2⟩
      refine ⟨insertFault_ordered h1 (State.fault_eq_none.1 hn) FaultKind.code_injective, ?_⟩
      intro e he
      rcases mem_insertFault.1 he with rfl | he
      · simp [State.newEntry]
      · exact h2 e he

theorem Settles.foldl {α : Type} (f : State → α → State) (h : ∀ s a, Settles s (f s a))
    (l : List α) (s : State) : Settles s (l.foldl f s) := by
  induction l generalizing s with
  | nil => exact Settles.refl s
  | cons a l ih => exact (h s a).trans (ih _)

theorem State.takeReports_settles (s : State) (rs : List Report) : Settles s (s.takeReports rs) := by
  have h1 := Settles.foldl State.latch State.latch_settles rs s
  unfold State.takeReports; simp only; split <;> split
  · exact (h1.trans (State.emergencyDemand_settles _)).trans (State.reactToFault_settles _ _)
  · exact h1.trans (State.reactToFault_settles _ _)
  · exact h1.trans (State.emergencyDemand_settles _)
  · exact h1

theorem State.report_settles (s : State) (r : Report) : Settles s (s.report r) :=
  s.takeReports_settles [r]

theorem State.takeFalls_settles (s : State) : Settles s s.takeFalls := by
  refine ⟨by constructor <;> rfl, List.Sublist.refl _, ?_, ?_, ?_, fun h => h⟩
  · intro e he
    refine ⟨_, List.mem_map_of_mem he, ?_⟩
    split
    · exact ⟨rfl, rfl, rfl, rfl, CarSet.join_self _, BrakeSet.join_self _⟩
    · exact Follows.refl e
  · intro e' he'
    obtain ⟨e, he, rfl⟩ := List.mem_map.1 he'
    refine .inl ⟨e, he, ?_⟩
    split
    · exact ⟨rfl, rfl, rfl, rfl, CarSet.join_self _, BrakeSet.join_self _⟩
    · exact Follows.refl e
  · rintro ⟨h1, h2⟩
    refine ⟨?_, ?_⟩
    · refine List.pairwise_map.2 (h1.imp ?_)
      intro a b hab
      split <;> split <;> exact hab
    · intro e' he'
      obtain ⟨e, he, rfl⟩ := List.mem_map.1 he'
      have := h2 e he
      split <;> exact this

theorem State.refresh_settles (s : State) : Settles s s.refresh :=
  s.takeFalls_settles.trans (State.takeReports_settles _ _)

/-! ## Slots and Reckoner -/

theorem State.takeSources_settles (s : State) : Settles s s.takeSources :=
  Settles.same (by constructor <;> rfl) rfl rfl rfl

theorem State.restartSlots_settles (s : State) : Settles s s.restartSlots :=
  Settles.same (by constructor <;> rfl) rfl rfl rfl

theorem State.expireSlots_settles (s : State) (w : List (Fin 14)) : Settles s (s.expireSlots w) :=
  Settles.same (by constructor <;> rfl) rfl rfl rfl

theorem State.takeOutputs_settles (s : State) (old : List Slot) : Settles s (s.takeOutputs old) :=
  ((s.modProf_settles _).trans (State.brakeFeedback_settles _ _)).trans
    (State.takeReports_settles _ _)

theorem State.bankStep_settles (s : State) : Settles s s.bankStep :=
  s.takeSources_settles.trans (State.takeOutputs_settles _ _)

theorem State.evalDisagree_settles (s : State) : Settles s s.evalDisagree :=
  s.modReck_settles _ rfl rfl

theorem State.setSource_settles (s : State) (ch : Channel) : Settles s (s.setSource ch) :=
  (s.modReck_settles _ rfl rfl).trans (State.modProf_settles _ _)

theorem State.failover_settles (s : State) : Settles s s.failover := by
  unfold State.failover; split
  · exact (((s.modChan_settles _ _).trans (State.setSource_settles _ _)).trans
      (State.evalDisagree_settles _)).trans (State.report_settles _ _)
  · exact Settles.refl s

theorem State.returnToMain_settles (s : State) : Settles s s.returnToMain := by
  unfold State.returnToMain; split
  · exact ((s.modChan_settles _ _).trans (State.setSource_settles _ _)).trans
      (State.evalDisagree_settles _)
  · exact Settles.refl s

theorem State.takeCreepTarget_settles (s : State) (x : Int) : Settles s (s.takeCreepTarget x) := by
  unfold State.takeCreepTarget; split
  · split
    · split
      · exact ((s.modRun_settles _).trans (State.formTarget_settles _ _)).trans
          (State.retarget_settles _ _ _)
      · exact Settles.refl s
    · exact Settles.refl s
  · exact Settles.refl s

/-- The first part of a referencing event: corrections 0 and both channels rebased (R36). -/
theorem State.referenced_settles (s : State) (x : Int) (zones : PerCar (List Zone)) :
    Settles s
      { s with
        reck :=
          { s.reck with
            referenced := true, c := ⟨0, 0⟩, miss := ⟨0, 0⟩, zones := zones, hasPrev := false }
        chan := ⟨s.chan.main.rebase x, s.chan.alt.rebase x⟩ } where
  outer := by constructor <;> rfl
  queue := List.Sublist.refl _
  old e he := ⟨e, he, Follows.refl e⟩
  new e he := .inl ⟨e, he, Follows.refl e⟩
  ordered h := h
  bounded _ := by
    intro h0 k
    have h0 : 0 ≤ s.settings.cMax := h0
    show mag ((⟨0, 0⟩ : PerCar Int).get k) ≤ s.settings.cMax
    cases k <;> simpa [PerCar.get, mag] using h0

theorem State.reference_settles (s : State) (x : Int) (zones : PerCar (List Zone)) :
    Settles s (s.reference x zones) := by
  unfold State.reference
  exact (((s.referenced_settles x zones).trans (State.evalDisagree_settles _)).trans
    (State.takeCreepTarget_settles _ _)).trans (State.modRun_settles _ _)

theorem State.terminalReference_settles (s : State) : Settles s s.terminalReference := by
  unfold State.terminalReference; split
  · exact s.reference_settles _ _
  · exact Settles.refl s

theorem State.detect_settles (s : State) : Settles s s.detect :=
  (((s.returnToMain_settles.trans (State.bankStep_settles _)).trans
    (State.failover_settles _)).trans (State.terminalReference_settles _)).trans
    (State.refresh_settles _)

/-! ## The Run Controller -/

theorem Settles.shrink {s t : State} (o : Outer s t)
    (hq : (t.queue.map (·.id)).Sublist (s.queue.map (·.id))) (hf : t.faults = s.faults)
    (hc : t.reck.c = s.reck.c) : Settles s t :=
  { Settles.same (t := { t with queue := s.queue })
      ⟨o.pending, o.held, o.time, o.inputs, o.store, o.tableInvalid, o.links, o.recs, o.periods,
        o.sample⟩ rfl hf hc with
    outer := o, queue := hq }

theorem State.clearMarks_settles (s : State) : Settles s s.clearMarks :=
  Settles.shrink (by constructor <;> rfl)
    (by simp only [State.clearMarks, List.map_map]; exact List.Sublist.refl _) rfl rfl

theorem State.removeServed_settles (s : State) (ids : List Ident) :
    Settles s (s.removeServed ids) :=
  Settles.shrink (by constructor <;> rfl) ((List.filter_sublist).map _) rfl rfl

theorem State.removeServedLoop_settles (s : State) (ids : List Ident) (err : PerCar Int) :
    Settles s (s.removeServedLoop ids err) := by
  refine Settles.shrink (by constructor <;> rfl) ?_ rfl rfl
  simp only [State.removeServedLoop, List.map_map]
  have : ((fun e : Entry => e.id) ∘ fun e : Entry =>
      if ids.contains e.id = true then { e with left := true } else e) = fun e => e.id := by
    funext e; simp only [Function.comp]; split <;> rfl
  rw [this]
  exact (List.filter_sublist).map _

theorem State.serveDwell_settles (s : State) (x : Stop) (ids : List Ident) (err : PerCar Int) :
    Settles s (s.serveDwell x ids err) := by
  unfold State.serveDwell; split
  · exact s.removeServedLoop_settles _ _
  · exact Settles.shrink (by constructor <;> rfl) ((List.filter_sublist).map _) rfl rfl
  · exact Settles.shrink (by constructor <;> rfl) ((List.filter_sublist).map _) rfl rfl

theorem State.enterPreparing_settles (s : State) (m : Mode) (d : Dir) (x : Option Stop)
    (ids : List Ident) : Settles s (s.enterPreparing m d x ids) := by
  have h := (s.clearMarks_settles.trans (State.enterState_settles s.clearMarks .preparing none none))
  unfold State.enterPreparing; simp only; split
  · exact (h.trans (State.modRun_settles _ _)).trans (State.formTarget_settles _ _)
  · exact h.trans (State.modRun_settles _ _)

theorem State.enterReleasing_settles (s : State) : Settles s s.enterReleasing :=
  ((s.enterState_settles _ _ _).trans (State.enableDrive_settles _)).trans
    (State.release_settles _)

theorem State.exitPreparing_settles (s : State) (r : RunRecord) : Settles s (s.exitPreparing r) := by
  unfold State.exitPreparing; simp only; split
  · exact (((s.modRun_settles _).trans (State.formTarget_settles _ _)).trans
      (State.createContext_settles _ _)).trans (State.enterReleasing_settles _)
  · exact ((s.modRun_settles _).trans (State.createContext_settles _ _)).trans
      (State.enterReleasing_settles _)

theorem State.enterRunning_settles (s : State) : Settles s s.enterRunning := by
  unfold State.enterRunning
  exact (s.enterState_settles _ _ _).trans (State.modRun_settles _ _)

theorem State.enterSettling_settles (s : State) (f : Flavour) : Settles s (s.enterSettling f) :=
  (s.enterState_settles _ _ _).trans (State.modRun_settles _ _)

theorem State.testDistance_settles (s : State) : Settles s s.testDistance := by
  unfold State.testDistance; repeat' split
  all_goals first
    | exact Settles.refl s
    | exact s.enterSettling_settles _
    | exact s.enterState_settles _ _ _

theorem State.endSuspendRamp_settles (s : State) : Settles s s.endSuspendRamp := by
  unfold State.endSuspendRamp; split
  · exact s.enterSettling_settles _
  · exact Settles.refl s

theorem State.sampleStandstill_settles (s : State) : Settles s s.sampleStandstill := by
  unfold State.sampleStandstill; repeat' split
  all_goals exact s.modRun_settles _

theorem State.expireStandstill_settles (s : State) : Settles s s.expireStandstill := by
  unfold State.expireStandstill; split <;> exact s.modRun_settles _

theorem State.enterDwell_settles (s : State) (x : Stop) (ids : List Ident) :
    Settles s (s.enterDwell x ids) := by
  have h (f : RunControl → RunControl) :=
    ((s.serveDwell_settles x ids (s.stopErrors x)).trans (State.modRun_settles _ f)).trans
      (State.enterState_settles _ .dwell none none)
  unfold State.enterDwell; simp only; split
  · exact (h _).trans (State.report_settles _ _)
  · exact h _

theorem State.enterParked_settles (s : State) : Settles s s.enterParked :=
  (s.enterState_settles _ _ _).trans (State.modRun_settles _ _)

theorem State.leaveFaultHeld_settles (s : State) : Settles s s.leaveFaultHeld :=
  (s.modBrk_settles _).trans (State.enterParked_settles _)

theorem State.takeChoice_settles (s : State) (c : Choice) : Settles s (s.takeChoice c) := by
  unfold State.takeChoice; split
  · exact Settles.refl s
  · exact s.enterDwell_settles _ _
  · exact s.enterPreparing_settles _ _ _ _

theorem State.arbitrate_settles (s : State) : Settles s s.arbitrate := by
  unfold State.arbitrate; simp only; split
  · exact (s.modRun_settles _).trans (State.takeChoice_settles _ _)
  · exact s.modRun_settles _

theorem State.endSettling_settles (s : State) : Settles s s.endSettling := by
  have h := s.disableDrive_settles
  unfold State.endSettling; simp only; repeat' split
  all_goals first
    | exact h.trans (State.enterState_settles _ _ _ _)
    | exact h.trans (State.enterDwell_settles _ _ _)
    | exact h.trans (State.enterParked_settles _)

theorem State.runSettling_settles (s : State) : Settles s s.runSettling := by
  unfold State.runSettling; simp only; split <;> split
  · exact (s.apply_settles _).trans (State.endSettling_settles _)
  · exact s.apply_settles _
  · exact s.endSettling_settles
  · exact Settles.refl s

theorem State.runFaultStopping_settles (s : State) : Settles s s.runFaultStopping := by
  unfold State.runFaultStopping; simp only
  have h1 : Settles s (if s.classApplies then s.classApply else s) := by
    split
    · exact s.classApply_settles
    · exact Settles.refl s
  generalize (if s.classApplies then s.classApply else s) = s1 at h1
  have h2 : Settles s (if s1.brakesDone ∧ s1.brk.enable = true then s1.disableDrive else s1) := by
    split
    · exact h1.trans s1.disableDrive_settles
    · exact h1
  generalize (if s1.brakesDone ∧ s1.brk.enable = true then s1.disableDrive else s1) = s2 at h2
  split
  · exact h2.trans (State.enterState_settles _ _ _ _)
  · exact h2

theorem State.runStep_settles (s : State) : Settles s s.runStep := by
  unfold State.runStep; repeat' split
  all_goals first
    | exact Settles.refl s
    | exact s.arbitrate_settles
    | exact s.exitPreparing_settles _
    | exact s.enterRunning_settles
    | exact s.runSettling_settles
    | exact s.enterParked_settles
    | exact s.runFaultStopping_settles
    | exact s.leaveFaultHeld_settles

theorem State.round_settles (s : State) : Settles s s.round :=
  s.detect_settles.trans (State.runStep_settles _)

theorem State.rounds_settles (n : Nat) (s : State) : Settles s (State.rounds n s) := by
  induction n generalizing s with
  | zero => exact Settles.refl s
  | succ n ih => exact s.round_settles.trans (ih _)

/-- An event that settles leaves all that lies outside the blocks' reactions. -/
theorem State.settle_settles (s : State) : Settles s s.settle := State.rounds_settles 8 s

end Sys2Proof.Machine
end

