-- ==== Sys2Proof/Laws/Events.lean ====
section
/-!
SUPPORT. How an event begins and ends: what the sending of command messages may change, when it sends
nothing, what the taking of a good frame comes to on an UP link, and that a state at rest settles at
once.
-/

namespace Sys2Proof.Machine

/-! ## Links -/

@[simp] theorem PerParty.set_get {α : Type} (x : PerParty α) (p : Party) : x.set p (x.get p) = x := by
  cases p <;> rfl

@[simp] theorem PerParty.set_set {α : Type} (x : PerParty α) (p : Party) (a b : α) :
    (x.set p a).set p b = x.set p b := by
  cases p <;> rfl

theorem State.link_modLink (s : State) (p q : Party) (f : Link → Link) :
    (s.modLink p f).link q = if p = q then f (s.link q) else s.link q := by
  cases p <;> cases q <;> rfl

/-- What a transmitter that is handed a message keeps: the link's state, its timer and its receiver. -/
theorem Link.hand_keeps (l : Link) (t : MsgType) (fs : List Frame) :
    (l.hand t fs).up = l.up ∧ (l.hand t fs).due = l.due ∧ (l.hand t fs).rx = l.rx := by
  unfold Link.hand
  split
  · exact ⟨rfl, rfl, rfl⟩
  · split <;> exact ⟨rfl, rfl, rfl⟩

@[simp] theorem Link.hand_up (l : Link) (t : MsgType) (fs : List Frame) : (l.hand t fs).up = l.up :=
  (l.hand_keeps t fs).1

@[simp] theorem Link.hand_due (l : Link) (t : MsgType) (fs : List Frame) : (l.hand t fs).due = l.due :=
  (l.hand_keeps t fs).2.1

@[simp] theorem Link.hand_rx (l : Link) (t : MsgType) (fs : List Frame) : (l.hand t fs).rx = l.rx :=
  (l.hand_keeps t fs).2.2

theorem State.send_eq (s : State) (p : Party) (t : MsgType) (pls : List (List Byte)) :
    s.send p t pls
      = { s with links := s.links.set p ((s.link p).hand t (pls.map fun pl => ⟨t.code, pl⟩)) } := rfl

/-! ## What the end of an event may change -/

/-- From s to t nothing has changed but transmitters, the timers of the command messages, and the
event's own marks. -/
structure Sends (s t : State) : Prop where
  pending : t.pending = s.pending
  held : t.held = s.held
  time : t.time = s.time
  inputs : t.inputs = s.inputs
  chan : t.chan = s.chan
  slots : t.slots = s.slots
  reck : t.reck = s.reck
  store : t.store = s.store
  queue : t.queue = s.queue
  shuttle : t.shuttle = s.shuttle
  run : { t.run with changed := false, arbitrate := false }
    = { s.run with changed := false, arbitrate := false }
  target : t.target = s.target
  prof : t.prof = s.prof
  brk : t.brk = s.brk
  faults : t.faults = s.faults
  conds : t.conds = s.conds
  tableInvalid : t.tableInvalid = s.tableInvalid
  recs : t.recs = s.recs
  sample : t.periods.sample = s.periods.sample
  status : t.periods.status = s.periods.status
  console : t.link .console = s.link .console
  drive : t.link .drive = s.link .drive
  links : ∀ p, (t.link p).up = (s.link p).up ∧ (t.link p).due = (s.link p).due
    ∧ (t.link p).rx = (s.link p).rx

theorem Sends.refl (s : State) : Sends s s where
  pending := rfl
  held := rfl
  time := rfl
  inputs := rfl
  chan := rfl
  slots := rfl
  reck := rfl
  store := rfl
  queue := rfl
  shuttle := rfl
  run := rfl
  target := rfl
  prof := rfl
  brk := rfl
  faults := rfl
  conds := rfl
  tableInvalid := rfl
  recs := rfl
  sample := rfl
  status := rfl
  console := rfl
  drive := rfl
  links _ := ⟨rfl, rfl, rfl⟩

theorem Sends.trans {s t u : State} (a : Sends s t) (b : Sends t u) : Sends s u where
  pending := b.pending.trans a.pending
  held := b.held.trans a.held
  time := b.time.trans a.time
  inputs := b.inputs.trans a.inputs
  chan := b.chan.trans a.chan
  slots := b.slots.trans a.slots
  reck := b.reck.trans a.reck
  store := b.store.trans a.store
  queue := b.queue.trans a.queue
  shuttle := b.shuttle.trans a.shuttle
  run := b.run.trans a.run
  target := b.target.trans a.target
  prof := b.prof.trans a.prof
  brk := b.brk.trans a.brk
  faults := b.faults.trans a.faults
  conds := b.conds.trans a.conds
  tableInvalid := b.tableInvalid.trans a.tableInvalid
  recs := b.recs.trans a.recs
  sample := b.sample.trans a.sample
  status := b.status.trans a.status
  console := b.console.trans a.console
  drive := b.drive.trans a.drive
  links p :=
    ⟨(b.links p).1.trans (a.links p).1, (b.links p).2.1.trans (a.links p).2.1,
      (b.links p).2.2.trans (a.links p).2.2⟩

theorem State.sendCar_sends (s : State) (k : Car) : Sends s (s.sendCar k) := by
  constructor <;> first
    | rfl
    | (cases k <;> rfl)
    | (intro p; cases k <;> cases p <;>
        simp [State.sendCar, State.send, State.link, Car.party, PerParty.get, PerParty.set])

theorem State.sendLoop_sends (s : State) : Sends s s.sendLoop := by
  constructor <;> first
    | rfl
    | (intro p; cases p <;> simp [State.sendLoop, State.send, State.link, PerParty.get, PerParty.set])

theorem State.announceCar_sends (before s : State) (k : Car) :
    Sends s (State.announceCar before k s) := by
  unfold State.announceCar
  split
  · exact s.sendCar_sends k
  · exact Sends.refl s

theorem State.announceLoop_sends (before s : State) : Sends s (State.announceLoop before s) := by
  unfold State.announceLoop
  split
  · exact s.sendLoop_sends
  · exact Sends.refl s

theorem State.clearMarks_sends (s : State) :
    Sends s (s.modRun fun r => { r with changed := false, arbitrate := false }) := by
  constructor <;> first | rfl | (intro p; exact ⟨rfl, rfl, rfl⟩)

/-- The end of an event changes nothing but transmitters, the timers of the command messages, and the
event's own marks. -/
theorem State.announce_sends (before s : State) : Sends s (State.announce before s) :=
  (((State.announceCar_sends before s .one).trans (State.announceCar_sends before _ .two)).trans
    (State.announceLoop_sends before _)).trans (State.clearMarks_sends _)

/-- After the end of an event the event's own marks are clear. -/
theorem State.announce_quiet (before s : State) : (State.announce before s).Quiet := ⟨rfl, rfl⟩

/-- The Run Controller's part after the end of an event. -/
theorem State.announce_run (before s : State) :
    (State.announce before s).run = { s.run with changed := false, arbitrate := false } := by
  have hq := State.announce_quiet before s
  rw [← (State.announce_sends before s).run]
  cases hr : (State.announce before s).run
  simp only [State.Quiet, hr] at hq
  simp [hq.1, hq.2]

/-- Clearing the marks of a state between events leaves it. -/
theorem State.clearMarks_quiet {s : State} (hq : s.Quiet) :
    (s.modRun fun r => { r with changed := false, arbitrate := false }) = s := by
  have e : ({ s.run with changed := false, arbitrate := false } : RunControl) = s.run := by
    cases h : s.run
    simp only [State.Quiet, h] at hq
    simp [hq.1, hq.2]
  simp only [State.modRun, e]

/-- An event that changes no trigger field and no run state sends nothing. -/
theorem State.announce_same {before s : State} (hq : s.Quiet)
    (hc : ∀ k, before.carTrigger k = s.carTrigger k) (hl : before.loopTrigger = s.loopTrigger) :
    State.announce before s = s := by
  have hcar : ∀ k, State.announceCar before k s = s := fun k => by
    simp [State.announceCar, hq.1, hc k]
  have hloop : State.announceLoop before s = s := by simp [State.announceLoop, hq.1, hl]
  rw [State.announce, hcar, hcar, hloop]
  exact State.clearMarks_quiet hq

/-! ## Trigger fields -/

/-- The parts of the state that the trigger fields of the command messages are formed from. -/
structure SameTriggers (s t : State) : Prop where
  run : t.run = s.run
  rail : t.brk.rail = s.brk.rail
  active : t.store.active = s.store.active
  up : ∀ p, t.linkUp p = s.linkUp p

theorem SameTriggers.door {s t : State} (h : SameTriggers s t) (k : Car) :
    t.doorRelease k = s.doorRelease k := by
  simp only [State.doorRelease, State.window, h.run, h.active, h.up]
  cases s.run.dwellStop <;> rfl

theorem SameTriggers.car {s t : State} (h : SameTriggers s t) (k : Car) :
    s.carTrigger k = t.carTrigger k := by
  simp only [State.carTrigger, h.door k, h.run, h.rail]
  have : t.nextStop = s.nextStop := by
    simp only [State.nextStop, h.run]
  rw [this]

theorem SameTriggers.loop {s t : State} (h : SameTriggers s t) : s.loopTrigger = t.loopTrigger := by
  simp only [State.loopTrigger, State.gateRelease, h.door, h.run]

/-! ## Events -/

/-- A part that is held in reset takes no event. -/
theorem State.event_held {s : State} (h : s.held = true) (dt : Nat) (body : State → State) :
    s.event dt body = s := by simp [State.event, h]

/-- An event of a part that runs. -/
theorem State.event_runs {s : State} (h : s.held = false) (dt : Nat) (body : State → State) :
    s.event dt body = State.announce (s.advance dt) (body (s.advance dt)) := by simp [State.event, h]

/-- An event whose body leaves the trigger fields and the marks as they were ends with its body. -/
theorem State.event_same {s t : State} (h : s.held = false) (dt : Nat) {body : State → State}
    (hb : body (s.advance dt) = t) (hq : t.Quiet) (ht : SameTriggers (s.advance dt) t) :
    s.event dt body = t := by
  rw [State.event_runs h, hb, State.announce_same hq ht.car ht.loop]

/-- An event ends between events. -/
theorem State.event_quiet {s : State} (hq : s.Quiet) (dt : Nat) (body : State → State) :
    (s.event dt body).Quiet := by
  cases h : s.held
  · rw [State.event_runs h]; exact State.announce_quiet _ _
  · rw [State.event_held h]; exact hq

/-! ## Good frames -/

/-- The state after a good frame has counted as traffic on an UP link. -/
def State.heard (s : State) (p : Party) : State :=
  s.modLink p fun l => { l with rx := .hunt, due := some (s.time + s.timeout p) }

@[simp] theorem State.setRx_setRx (s : State) (p : Party) (a b : Receiver) :
    (s.setRx p a).setRx p b = s.setRx p b := by cases p <;> rfl

@[simp] theorem State.setRx_link (s : State) (p : Party) (rx : Receiver) :
    (s.setRx p rx).link p = { s.link p with rx := rx } := by cases p <;> rfl

@[simp] theorem State.setRx_blocked (s : State) (p : Party) (rx : Receiver) :
    ((s.setRx p rx).link p).blocked = (s.link p).blocked := by cases p <;> rfl

theorem State.setRx_same {s : State} {p : Party} {rx : Receiver} (h : (s.link p).rx = rx) :
    s.setRx p rx = s := by
  subst h; cases p <;> rfl

/-- While 32 REPLY frames wait a receiver takes no character (R181). -/
theorem State.takeChars_blocked {s : State} {p : Party} (h : (s.link p).blocked = true)
    (bs : List Byte) : s.takeChars p bs = s := by
  induction bs with
  | nil => rfl
  | cons b bs ih =>
    have e : s.takeChar p b = s := by simp only [State.takeChar, h, if_true]
    show (s.takeChar p b).takeChars p bs = s
    rw [e, ih]

/-- In HUNT a receiver ignores every character but a 0x5A (R177). -/
theorem State.takeChars_hunt {s : State} {p : Party} (h : (s.link p).rx = .hunt) {bs : List Byte}
    (hb : (0x5A : Byte) ∉ bs) : s.takeChars p bs = s := by
  induction bs with
  | nil => rfl
  | cons b bs ih =>
    have hn : b ≠ 0x5A := fun e => hb (e ▸ List.mem_cons_self)
    have e : s.takeChar p b = s := by
      simp only [State.takeChar, h, Receiver.take, if_neg hn]
      split
      · rfl
      · exact State.setRx_same h
    show (s.takeChar p b).takeChars p bs = s
    rw [e, ih fun hm => hb (List.mem_cons_of_mem _ hm)]

/-- A character in IN_FRAME (R177). -/
theorem State.takeChar_inFrame {s : State} {p : Party} (h : (s.link p).blocked = false)
    (taken : List Byte) (b : Byte) :
    (s.setRx p (.inFrame taken)).takeChar p b =
      match Receiver.follow (taken ++ [b]) with
      | (rx, none) => s.setRx p rx
      | (rx, some (f, crc)) => (s.setRx p rx).checkedFrame p f crc := by
  have hb : ((s.setRx p (.inFrame taken)).link p).blocked = false := by rw [State.setRx_blocked, h]
  have hr : ((s.setRx p (.inFrame taken)).link p).rx = .inFrame taken := by rw [State.setRx_link]
  simp only [State.takeChar, hb, hr, Receiver.take]
  cases Receiver.follow (taken ++ [b]) with
  | mk rx o => cases o <;> simp

/-- Characters that do not complete the frame move the receiver's position on (R177). -/
theorem State.takeChars_partial {s : State} {p : Party} (h : (s.link p).blocked = false)
    (type len : Byte) (hl : len.toNat ≤ 192) (bs : List Byte) :
    ∀ rest : List Byte, rest.length + bs.length < len.toNat + 2 →
      (s.setRx p (.inFrame (type :: len :: rest))).takeChars p bs
        = s.setRx p (.inFrame (type :: len :: (rest ++ bs))) := by
  induction bs with
  | nil => intro rest _; simp [State.takeChars]
  | cons b bs ih =>
    intro rest hr
    have hlen : (rest ++ [b]).length < len.toNat + 2 := by simp at hr ⊢; omega
    have hf : Receiver.follow ((type :: len :: rest) ++ [b])
        = (.inFrame (type :: len :: (rest ++ [b])), none) := by
      simp only [List.cons_append, Receiver.follow, if_neg (Nat.not_lt.mpr hl), if_pos hlen]
    show ((s.setRx p (.inFrame (type :: len :: rest))).takeChar p b).takeChars p bs = _
    rw [State.takeChar_inFrame h, hf]
    have := ih (rest ++ [b]) (by simp at hr ⊢; omega)
    simpa using this

theorem crc_halves (crc : BitVec 16) :
    (crc.extractLsb' 8 8 ++ crc.extractLsb' 0 8 : BitVec 16) = crc := by
  apply BitVec.eq_of_getLsbD_eq
  intro i hi
  simp only [BitVec.getLsbD_append, BitVec.getLsbD_extractLsb']
  by_cases h8 : i < 8
  · simp [h8]
  · simp only [h8, if_false]
    have : i - 8 < 8 := by omega
    simp [this, show 8 + (i - 8) = i by omega]

/-- A receiver that has taken the SYNC of a frame takes the frame, and returns to HUNT at its second CRC
character (R177). -/
theorem State.hearChecked_listens {s : State} {p : Party} (h : s.Listens p) (type : Byte)
    {pl : List Byte} (hp : pl.length ≤ 192) (crc : BitVec 16) :
    s.hearChecked p type pl crc = (s.setRx p .hunt).checkedFrame p ⟨type, pl⟩ crc := by
  have hlen : (BitVec.ofNat 8 pl.length).toNat = pl.length := by
    simp only [BitVec.toNat_ofNat]; omega
  have h1 : s.takeChar p type = s.setRx p (.inFrame [type]) := by
    have := State.takeChar_inFrame (p := p) h.2 [] type
    rw [State.setRx_same h.1] at this
    exact this
  have h2 : (s.setRx p (.inFrame [type])).takeChar p (BitVec.ofNat 8 pl.length)
      = s.setRx p (.inFrame [type, BitVec.ofNat 8 pl.length]) := by
    rw [State.takeChar_inFrame h.2]
    simp only [List.cons_append, List.nil_append, Receiver.follow, hlen,
      if_neg (Nat.not_lt.mpr hp), List.length_nil, Nat.zero_lt_succ, if_true]
  have h3 := State.takeChars_partial h.2 type (BitVec.ofNat 8 pl.length) (by omega)
    (pl ++ [crc.extractLsb' 8 8]) [] (by simp [hlen])
  have e : frameChars type pl crc
      = type :: BitVec.ofNat 8 pl.length :: ((pl ++ [crc.extractLsb' 8 8]) ++ [crc.extractLsb' 0 8]) := by
    simp [frameChars]
  have hf : Receiver.follow ((type :: BitVec.ofNat 8 pl.length :: (pl ++ [crc.extractLsb' 8 8]))
      ++ [crc.extractLsb' 0 8]) = (.hunt, some (⟨type, pl⟩, crc)) := by
    have hn : ¬ ((pl ++ [crc.extractLsb' 8 8] ++ [crc.extractLsb' 0 8]).length < pl.length + 2) := by
      simp
    simp only [List.cons_append, Receiver.follow, hlen, if_neg (Nat.not_lt.mpr hp), if_neg hn]
    have ht : (pl ++ [crc.extractLsb' 8 8] ++ [crc.extractLsb' 0 8]).take pl.length = pl := by simp
    have hg : (pl ++ [crc.extractLsb' 8 8] ++ [crc.extractLsb' 0 8]).getD pl.length 0
        = crc.extractLsb' 8 8 := by simp [List.getD]
    have hg' : (pl ++ [crc.extractLsb' 8 8] ++ [crc.extractLsb' 0 8]).getD (pl.length + 1) 0
        = crc.extractLsb' 0 8 := by simp [List.getD]
    rw [ht, hg, hg', crc_halves]
  have step : s.hearChecked p type pl crc
      = ((((s.takeChar p type).takeChar p (BitVec.ofNat 8 pl.length)).takeChars p
          (pl ++ [crc.extractLsb' 8 8])).takeChar p (crc.extractLsb' 0 8)) := by
    simp only [State.hearChecked, e, State.takeChars, List.foldl_cons, List.foldl_append,
      List.foldl_nil]
  rw [step, h1, h2, h3, State.takeChar_inFrame h.2, List.nil_append, hf]

/-- A good frame is taken as one where its receiver has taken its SYNC (R177, R178). -/
theorem State.hear_listens {s : State} {p : Party} (h : s.Listens p) (type : Byte) {pl : List Byte}
    (hp : pl.length ≤ 192) : s.hear p type pl = (s.setRx p .hunt).goodFrame p type pl := by
  rw [State.hear, State.hearChecked_listens h type hp, State.checkedFrame, if_pos rfl]

/-- A frame whose CRC does not agree is discarded (R177). -/
theorem State.hearChecked_bad {s : State} {p : Party} (h : s.Listens p) (type : Byte) {pl : List Byte}
    (hp : pl.length ≤ 192) {crc : BitVec 16} (hc : crc ≠ Frame.crc ⟨type, pl⟩) :
    s.hearChecked p type pl crc = s.setRx p .hunt := by
  rw [State.hearChecked_listens h type hp, State.checkedFrame, if_neg hc]

/-- Traffic on an UP link restarts its timer and nothing else (R182). -/
theorem State.traffic_up {s : State} {p : Party} (h : s.linkUp p = true) :
    (s.setRx p .hunt).traffic p = s.heard p := by
  have hu : (s.setRx p .hunt).linkUp p = true := by cases p <;> exact h
  simp only [State.traffic, hu, if_true]
  cases p <;> rfl

/-- A good frame on an UP link whose receiver has taken its SYNC is taken by its type (R179). -/
theorem State.hear_hears {s : State} {p : Party} (h : s.Hears p) (type : Byte) {pl : List Byte}
    (hp : pl.length ≤ 192) : s.hear p type pl = (s.heard p).takeFrame p type pl := by
  rw [State.hear_listens h.2 type hp, State.goodFrame, State.traffic_up h.1]

/-- While 32 REPLY frames wait no frame is taken (R181). -/
theorem State.hear_blocked {s : State} {p : Party} (h : (s.link p).blocked = true) (type : Byte)
    (pl : List Byte) : s.hear p type pl = s := State.takeChars_blocked h _

theorem State.heard_same (s : State) (p : Party) : SameTriggers s (s.heard p) where
  run := rfl
  rail := rfl
  active := rfl
  up q := by cases p <;> cases q <;> rfl

theorem State.heard_link (s : State) (p : Party) (dt : Nat) :
    ((s.advance dt).heard p).link p = s.heardLink dt p := by cases p <;> rfl

/-- A good frame that is answered with a REPLY and changes nothing else but its link: the event comes to
the answered state. -/
theorem State.event_answered {s : State} (hr : s.Ready) {p : Party} (hh : s.Hears p) (dt : Nat)
    (type : Byte) {pl : List Byte} (hp : pl.length ≤ 192) {r : Reply}
    (ht : ((s.advance dt).heard p).takeFrame p type pl
      = ((s.advance dt).heard p).reply p type pl r) :
    s.event dt (State.hear p type pl) = s.answered dt p type (tagOf pl) r := by
  have hh' : (s.advance dt).Hears p := hh
  have e : ((s.advance dt).heard p).reply p type pl r = s.answered dt p type (tagOf pl) r := by
    cases p <;> rfl
  refine State.event_same hr.1 dt ((State.hear_hears hh' type hp).trans (ht.trans e)) hr.2 ?_
  constructor
  · rfl
  · rfl
  · rfl
  · intro q
    cases p <;> cases q <;>
      simp [State.answered, State.heardLink, State.linkUp, State.link, PerParty.get, PerParty.set]

/-! ## A state at rest -/

theorem State.takeReports_nil (s : State) : s.takeReports [] = s := by
  simp [State.takeReports, State.latchesEmergency, State.createsStop]

/-- With no output changed, the blocks take nothing (R49). -/
theorem State.takeOutputs_same {s : State} (h : s.prof.wind = s.out 9) :
    s.takeOutputs s.slots = s := by
  have hw : (s.modProf fun p => { p with wind := s.out 9 }) = s := by
    rw [← h]; rfl
  have hl : s.lostRelease s.slots = ⟨false, false⟩ := by
    simp [State.lostRelease, State.serviceOpen, State.emergencyOpen, State.out]
  have hb : s.brakeFeedback s.slots = s := by
    simp [State.brakeFeedback, hl, Brake.feedback, State.serviceOpen, State.emergencyOpen, State.out,
      State.modBrk]
  simp only [State.takeOutputs, hw, hl, hb, lostReports]
  exact s.takeReports_nil

/-- With the conditions as the Fault Handler last took them, it takes nothing (R165). -/
theorem State.refresh_same {s : State} (h : s.conds = s.holding) : s.refresh = s := by
  have hf : s.takeFalls = s := by
    simp only [State.takeFalls, ← h]
    cases s; simp
  have hr : s.risen = [] := by
    simp [State.risen, h]
  simp only [State.refresh, hf, hr, List.map_nil]
  exact s.takeReports_nil

/-- In a state at rest no block detects anything. -/
theorem State.AtRest.detect {s : State} (h : s.AtRest) : s.detect = s := by
  have h1 : s.returnToMain = s := by simp [State.returnToMain, h.noReturn]
  have h2 : s.bankStep = s := by
    rw [State.bankStep, h.slots, State.takeOutputs_same h.wind]
  have h3 : s.failover = s := by
    rw [State.failover, if_neg h.noFailover]
  have h4 : s.terminalReference = s := by
    rw [State.terminalReference, if_neg h.noReference]
  rw [State.detect, h1, h2, h3, h4, State.refresh_same h.conds]

/-- In a state at rest a round is one move of the Run Controller. -/
theorem State.AtRest.round {s : State} (h : s.AtRest) : s.round = s.runStep := by
  rw [State.round, h.detect]

theorem State.rounds_fixed {s : State} (h : s.round = s) (n : Nat) : State.rounds n s = s := by
  induction n with
  | zero => rfl
  | succ n ih => rw [State.rounds, h, ih]

/-- A state at rest in which the Run Controller has no move to make settles at once. -/
theorem State.AtRest.settle {s : State} (h : s.AtRest) (hr : s.runStep = s) : s.settle = s :=
  State.rounds_fixed (h.round.trans hr) 8

/-- One round of a settling, taken out. -/
theorem State.settle_succ (s : State) : s.settle = State.rounds 7 s.round := rfl

theorem State.runStep_parked {s : State} (h : s.run.state = .parked)
    (ha : s.run.arbitrate = false) : s.runStep = s := by simp [State.runStep, h, ha]

theorem State.runStep_moving {s : State} (h : s.run.state = .running ∨ s.run.state = .finalApproach
    ∨ s.run.state = .suspending ∨ s.run.state = .suspended) : s.runStep = s := by
  rcases h with h | h | h | h <;> simp [State.runStep, h]

theorem State.runStep_faultHeld {s : State} (h : s.run.state = .faultHeld)
    (hd : s.stopDemanded = true) : s.runStep = s := by simp [State.runStep, h, hd]

/-! ## Latches -/

theorem CarSet.join_join (a b : CarSet) : a.join (b.join a) = b.join a := by
  obtain ⟨a1, a2⟩ := a; obtain ⟨b1, b2⟩ := b
  cases a1 <;> cases a2 <;> cases b1 <;> cases b2 <;> rfl

theorem BrakeSet.join_join (a b : BrakeSet) : a.join (b.join a) = b.join a := by
  obtain ⟨a1, a2⟩ := a; obtain ⟨b1, b2⟩ := b
  cases a1 <;> cases a2 <;> cases b1 <;> cases b2 <;> rfl

/-- A report that the Fault Handler takes is in the Active Fault Set, with the cars and brakes it names
(R163, R164). -/
theorem State.latch_has (s : State) (r : Report) : ∃ e ∈ (s.latch r).faults, e.kind = r.kind
    ∧ r.cars.join e.cars = e.cars ∧ r.brakes.join e.brakes = e.brakes := by
  unfold State.latch
  cases hf : s.fault r.kind with
  | some e =>
    have hm : e ∈ s.faults := List.mem_of_find?_eq_some hf
    have hk : e.kind = r.kind := by simpa using List.find?_some hf
    refine ⟨e.relatch r, List.mem_map.mpr ⟨e, hm, by simp [hk]⟩, hk, ?_, ?_⟩
    · exact CarSet.join_join r.cars e.cars
    · exact BrakeSet.join_join r.brakes e.brakes
  | none =>
    exact ⟨s.newEntry r, mem_insertFault.mpr (.inl rfl), rfl, CarSet.join_self _, BrakeSet.join_self _⟩

/-- What the reports of one event leave after the latches themselves is another change that the settling
of an event may make. -/
theorem State.takeReports_latched (s : State) (rs : List Report) :
    Settles (rs.foldl State.latch s) (s.takeReports rs) := by
  unfold State.takeReports
  split <;> split <;> first
    | exact (State.emergencyDemand_settles _).trans (State.reactToFault_settles _ _)
    | exact State.emergencyDemand_settles _
    | exact State.reactToFault_settles _ _
    | exact Settles.refl _

/-- A single report that is taken is in the Active Fault Set. -/
theorem State.report_has (s : State) (r : Report) : ∃ e ∈ (s.report r).faults, e.kind = r.kind
    ∧ r.cars.join e.cars = e.cars ∧ r.brakes.join e.brakes = e.brakes := by
  obtain ⟨e, he, hk, hc, hb⟩ := s.latch_has r
  obtain ⟨e', he', f⟩ := (s.takeReports_latched [r]).old e he
  exact ⟨e', he', f.kind.trans hk, CarSet.join_trans hc f.cars, BrakeSet.join_trans hb f.brakes⟩

/-! ## The Request Queue -/

/-- A candidate that does not find the queue full keeps the Request Queue's law (R59). -/
theorem State.takeCall_queueLaw {s : State} (h : s.QueueLaw) {id : Ident} (side : Side)
    (hf : s.queueFull id = false) : (s.takeCall id side).QueueLaw := by
  unfold State.takeCall
  split
  · refine ⟨by simpa using h.1, ?_⟩
    have : (s.queue.map fun e => if e.id = id then { e with side := e.side.join side } else e).map
        (·.id) = s.queue.map (·.id) := by
      rw [List.map_map]; congr 1; funext e; simp only [Function.comp]; split <;> rfl
    show List.Nodup (List.map _ _)
    rw [this]; exact h.2
  · rename_i hq
    have hq' : s.queued id = false := by simpa using hq
    have hlen : s.queue.length < 6 := by
      simpa [State.queueFull, hq'] using hf
    have key : ({ s with queue := s.queue ++ [Entry.mk id side false] } : State).QueueLaw := by
      refine ⟨by simp; omega, ?_⟩
      simp only [List.map_append, List.map_cons, List.map_nil]
      rw [List.nodup_append]
      refine ⟨h.2, by simp, ?_⟩
      intro a ha b hb
      simp only [List.mem_singleton] at hb
      subst hb
      rintro rfl
      obtain ⟨e, he, hi⟩ := List.mem_map.mp ha
      have : s.queued a = true := List.any_eq_true.mpr ⟨e, he, by simpa using hi⟩
      simp [hq'] at this
    unfold State.addServed
    split
    · split <;> exact key
    · exact key

end Sys2Proof.Machine
end

