-- ==== Sys2Proof/Laws/RunLaws.lean ====
section
/-!
SUPPORT. The laws of outputs, run state, Run Record, faults and reference (`State.RunLaws`), and how every
operation of a round keeps them.
-/

namespace Sys2Proof.Machine

/-! ## Orders that energise nothing -/

/-- From s to t no output is energised that was not, and DRIVE ENABLE falls only with both brake
release outputs off. -/
structure Lowers (s t : State) : Prop where
  enable : t.brk.enable = s.brk.enable ∨
    (t.brk.enable = false ∧ t.brk.service.output = false ∧ t.brk.emergency.output = false)
  service : t.brk.service.output = true → s.brk.service.output = true
  emergency : t.brk.emergency.output = true → s.brk.emergency.output = true
  marks : s.MarkLaw → t.MarkLaw

theorem Lowers.same {s t : State} (h : t.brk = s.brk) : Lowers s t where
  enable := .inl (by rw [h])
  service := by rw [h]; exact id
  emergency := by rw [h]; exact id
  marks := by unfold State.MarkLaw; rw [h]; exact id

theorem Lowers.refl (s : State) : Lowers s s := Lowers.same rfl

theorem Lowers.trans {s t u : State} (a : Lowers s t) (b : Lowers t u) : Lowers s u where
  enable := by
    rcases b.enable with h | h
    · rcases a.enable with g | ⟨g1, g2, g3⟩
      · exact .inl (h.trans g)
      · refine .inr ⟨h.trans g1, ?_, ?_⟩
        · have := b.service; simp_all
        · have := b.emergency; simp_all
    · exact .inr h
  service h := a.service (b.service h)
  emergency h := a.emergency (b.emergency h)
  marks h := b.marks (a.marks h)

theorem Lowers.output {s t : State} (h : Lowers s t) (o : s.OutputLaw) : t.OutputLaw := by
  intro hx
  rcases h.enable with g | ⟨_, g2, g3⟩
  · rw [g]; exact o (hx.imp h.service h.emergency)
  · simp [g2, g3] at hx

theorem Lowers.off {s t : State} (h : Lowers s t) (o : s.brk.enable = false) :
    t.brk.enable = false := by
  rcases h.enable with g | g
  · rw [g, o]
  · exact g.1

/-- Both brake release outputs of an unchanged or lowered unit are off once DRIVE ENABLE is off. -/
theorem State.OutputLaw.outputs_off {s : State} (o : s.OutputLaw) (h : s.brk.enable = false) :
    s.brk.service.output = false ∧ s.brk.emergency.output = false := by
  unfold State.OutputLaw at o; rw [h] at o; simpa using o

theorem Brake.apply_output (b : Brake) (now d : Nat) (o : Bool) :
    (b.apply now d o).output = false := by
  rcases b with ⟨st, due, ended⟩
  cases st <;> cases o <;> rfl

theorem Brake.apply_marks {b : Brake} (h : b.MarkLaw) (now d : Nat) (o : Bool) :
    (b.apply now d o).MarkLaw := by
  rcases b with ⟨st, due, ended⟩
  cases st <;> cases o <;> simp_all [Brake.MarkLaw, Brake.apply]

theorem Brake.release_marks {b : Brake} (h : b.MarkLaw) (now d : Nat) (o : Bool) :
    (b.release now d o).MarkLaw := by
  rcases b with ⟨st, due, ended⟩
  cases st <;> cases o <;> simp_all [Brake.MarkLaw, Brake.release]

theorem Brake.feedback_output (b : Brake) (was is : Bool) :
    (b.feedback was is).output = true → b.output = true := by
  rcases b with ⟨st, due, ended⟩
  cases st <;> cases was <;> cases is <;>
    simp [Brake.feedback, Brake.rise, Brake.fall, Brake.output]

theorem Brake.feedback_marks {b : Brake} (h : b.MarkLaw) (was is : Bool) :
    (b.feedback was is).MarkLaw := by
  rcases b with ⟨st, due, ended⟩
  cases st <;> cases was <;> cases is <;>
    simp_all [Brake.MarkLaw, Brake.feedback, Brake.rise, Brake.fall]

/-- A change of the unit that keeps enable and both brakes. -/
theorem State.modBrk_lowers (s : State) (f : BrakeUnit → BrakeUnit)
    (he : (f s.brk).enable = s.brk.enable) (hs : (f s.brk).service = s.brk.service)
    (hm : (f s.brk).emergency = s.brk.emergency) : Lowers s (s.modBrk f) where
  enable := .inl he
  service := by simp [hs]
  emergency := by simp [hm]
  marks := by simp [State.MarkLaw, hs, hm]

theorem State.startCheck_lowers (s : State) (b : BrakeSet) : Lowers s (s.startCheck b) := by
  unfold State.startCheck; simp only; split
  · exact s.modBrk_lowers _ rfl rfl rfl
  · exact Lowers.refl s

@[simp] theorem State.startCheck_enable (s : State) (b : BrakeSet) :
    (s.startCheck b).brk.enable = s.brk.enable := by
  unfold State.startCheck; simp only; split <;> rfl

@[simp] theorem State.startCheck_service (s : State) (b : BrakeSet) :
    (s.startCheck b).brk.service = s.brk.service := by
  unfold State.startCheck; simp only; split <;> rfl

@[simp] theorem State.startCheck_emergency (s : State) (b : BrakeSet) :
    (s.startCheck b).brk.emergency = s.brk.emergency := by
  unfold State.startCheck; simp only; split <;> rfl

@[simp] theorem State.apply_enable (s : State) (w : BrakeSet) :
    (s.apply w).brk.enable = s.brk.enable := by simp [State.apply]

/-- What an APPLY does to the service brake (R143). -/
theorem State.apply_service (s : State) (w : BrakeSet) :
    (s.apply w).brk.service =
      if w.service then s.brk.service.apply s.time s.applyDeadline s.serviceOpen
      else s.brk.service := by simp [State.apply]

/-- What an APPLY does to the emergency brake (R143). -/
theorem State.apply_emergency (s : State) (w : BrakeSet) :
    (s.apply w).brk.emergency =
      if w.emergency then s.brk.emergency.apply s.time s.applyDeadline s.emergencyOpen
      else s.brk.emergency := by simp [State.apply]

theorem State.apply_lowers (s : State) (w : BrakeSet) : Lowers s (s.apply w) where
  enable := .inl (s.apply_enable w)
  service := by rw [State.apply_service]; split <;> simp [Brake.apply_output]
  emergency := by rw [State.apply_emergency]; split <;> simp [Brake.apply_output]
  marks h := by
    refine ⟨?_, ?_⟩
    · rw [State.apply_service]; split
      · exact Brake.apply_marks h.1 _ _ _
      · exact h.1
    · rw [State.apply_emergency]; split
      · exact Brake.apply_marks h.2 _ _ _
      · exact h.2

/-- After an APPLY of both brakes neither release output is energised (R143). -/
theorem State.apply_both_off (s : State) :
    (s.apply .both).brk.service.output = false ∧ (s.apply .both).brk.emergency.output = false := by
  rw [State.apply_service, State.apply_emergency]; simp [BrakeSet.both, Brake.apply_output]

/-- DISABLE leaves all three outputs de-energised (R140, R147). -/
theorem State.disableDrive_off (s : State) :
    s.disableDrive.brk.enable = false ∧ s.disableDrive.brk.service.output = false
      ∧ s.disableDrive.brk.emergency.output = false := ⟨rfl, s.apply_both_off⟩

/-- The EMERGENCY demand leaves all three outputs de-energised (R154). -/
theorem State.emergencyDemand_off (s : State) :
    s.emergencyDemand.brk.enable = false ∧ s.emergencyDemand.brk.service.output = false
      ∧ s.emergencyDemand.brk.emergency.output = false := ⟨rfl, s.apply_both_off⟩

theorem State.disableDrive_lowers (s : State) : Lowers s s.disableDrive :=
  { s.apply_lowers .both with enable := .inr s.disableDrive_off }

theorem State.emergencyDemand_lowers (s : State) : Lowers s s.emergencyDemand :=
  { s.apply_lowers .both with enable := .inr s.emergencyDemand_off }

theorem State.classApply_lowers (s : State) : Lowers s s.classApply :=
  (s.apply_lowers _).trans (State.modBrk_lowers _ _ rfl rfl rfl)

theorem State.startClass_lowers (s : State) (c : StopClass) : Lowers s (s.startClass c) := by
  unfold State.startClass; split
  · exact s.modBrk_lowers _ rfl rfl rfl
  · exact s.modBrk_lowers _ rfl rfl rfl
  · exact Lowers.refl s

theorem State.brakeFeedback_lowers (s : State) (old : List Slot) :
    Lowers s (s.brakeFeedback old) := by
  unfold State.brakeFeedback; simp only
  have h : Lowers s (s.modBrk fun u =>
      { u with
        service := u.service.feedback (slotOut old 3) s.serviceOpen
        emergency := u.emergency.feedback (slotOut old 4) s.emergencyOpen }) := by
    refine ⟨.inl rfl, ?_, ?_, ?_⟩
    · exact Brake.feedback_output _ _ _
    · exact Brake.feedback_output _ _ _
    · exact fun h => ⟨Brake.feedback_marks h.1 _ _, Brake.feedback_marks h.2 _ _⟩
  split <;> split
  · exact h.trans ((State.apply_lowers _ _).trans (State.apply_lowers _ _))
  · exact h.trans (State.apply_lowers _ _)
  · exact h.trans (State.apply_lowers _ _)
  · exact h

/-! ## Steps that leave the run as it stands -/

/-- From s to t the run state, the presence of a Run Record, the demand for a stop and the reference
stand, and no output is energised. -/
structure Calm (s t : State) : Prop where
  lowers : Lowers s t
  state : t.run.state = s.run.state
  record : t.run.record.isSome = s.run.record.isSome
  stop : t.stopDemanded = s.stopDemanded
  vRef : t.prof.vRef = s.prof.vRef

theorem Calm.refl (s : State) : Calm s s := ⟨Lowers.refl s, rfl, rfl, rfl, rfl⟩

theorem Calm.trans {s t u : State} (a : Calm s t) (b : Calm t u) : Calm s u :=
  ⟨a.lowers.trans b.lowers, b.state.trans a.state, b.record.trans a.record, b.stop.trans a.stop,
    b.vRef.trans a.vRef⟩

theorem Calm.inv {s t : State} (h : Calm s t) (i : State.RunLaws s) : State.RunLaws t where
  output := h.lowers.output i.output
  marks := h.lowers.marks i.marks
  standing := by intro hs; rw [h.state] at hs; exact h.lowers.off (i.standing hs)
  stop := by intro hs; rw [h.stop] at hs; rw [h.state]; exact i.stop hs
  record := by unfold State.RecordLaw; rw [h.record, h.state]; exact i.record
  zero := by intro hs; rw [h.state] at hs; rw [h.vRef]; exact i.zero hs

/-- A step that leaves run, brakes, faults and reference alone is calm. -/
theorem Calm.same {s t : State} (hr : t.run = s.run) (hb : t.brk = s.brk)
    (hf : t.faults = s.faults) (hv : t.prof.vRef = s.prof.vRef) : Calm s t :=
  ⟨Lowers.same hb, by rw [hr], by rw [hr], by unfold State.stopDemanded; rw [hf], hv⟩

/-- A step of the brakes alone that lowers is calm. -/
theorem Calm.brakes {s t : State} (hl : Lowers s t) (hr : t.run = s.run)
    (hf : t.faults = s.faults) (hv : t.prof.vRef = s.prof.vRef) : Calm s t :=
  ⟨hl, by rw [hr], by rw [hr], by unfold State.stopDemanded; rw [hf], hv⟩

@[simp] theorem State.startCheck_run (s : State) (b : BrakeSet) : (s.startCheck b).run = s.run := by
  unfold State.startCheck; simp only; split <;> rfl
@[simp] theorem State.startCheck_faults (s : State) (b : BrakeSet) :
    (s.startCheck b).faults = s.faults := by unfold State.startCheck; simp only; split <;> rfl
@[simp] theorem State.startCheck_prof (s : State) (b : BrakeSet) :
    (s.startCheck b).prof = s.prof := by unfold State.startCheck; simp only; split <;> rfl
@[simp] theorem State.apply_run (s : State) (w : BrakeSet) : (s.apply w).run = s.run := by
  simp [State.apply]
@[simp] theorem State.apply_faults (s : State) (w : BrakeSet) :
    (s.apply w).faults = s.faults := by simp [State.apply]
@[simp] theorem State.apply_prof (s : State) (w : BrakeSet) : (s.apply w).prof = s.prof := by
  simp [State.apply]
@[simp] theorem State.disableDrive_run (s : State) : s.disableDrive.run = s.run := by
  simp [State.disableDrive]
@[simp] theorem State.disableDrive_faults (s : State) : s.disableDrive.faults = s.faults := by
  simp [State.disableDrive]
@[simp] theorem State.disableDrive_prof (s : State) : s.disableDrive.prof = s.prof := by
  simp [State.disableDrive]
@[simp] theorem State.emergencyDemand_run (s : State) : s.emergencyDemand.run = s.run := by
  simp [State.emergencyDemand]
@[simp] theorem State.emergencyDemand_faults (s : State) :
    s.emergencyDemand.faults = s.faults := by simp [State.emergencyDemand]
@[simp] theorem State.emergencyDemand_prof (s : State) : s.emergencyDemand.prof = s.prof := by
  simp [State.emergencyDemand]
@[simp] theorem State.classApply_run (s : State) : s.classApply.run = s.run := by
  simp [State.classApply]
@[simp] theorem State.classApply_faults (s : State) : s.classApply.faults = s.faults := by
  simp [State.classApply]
@[simp] theorem State.classApply_prof (s : State) : s.classApply.prof = s.prof := by
  simp [State.classApply]
@[simp] theorem State.startClass_run (s : State) (c : StopClass) :
    (s.startClass c).run = s.run := by unfold State.startClass; split <;> rfl
@[simp] theorem State.startClass_faults (s : State) (c : StopClass) :
    (s.startClass c).faults = s.faults := by unfold State.startClass; split <;> rfl
@[simp] theorem State.startClass_prof (s : State) (c : StopClass) :
    (s.startClass c).prof = s.prof := by unfold State.startClass; split <;> rfl

theorem State.apply_calm (s : State) (w : BrakeSet) : Calm s (s.apply w) :=
  Calm.brakes (s.apply_lowers w) (s.apply_run w) (s.apply_faults w) (by simp)

theorem State.classApply_calm (s : State) : Calm s s.classApply :=
  Calm.brakes s.classApply_lowers s.classApply_run s.classApply_faults (by simp)

theorem State.disableDrive_calm (s : State) : Calm s s.disableDrive :=
  Calm.brakes s.disableDrive_lowers s.disableDrive_run s.disableDrive_faults (by simp)

theorem State.emergencyDemand_calm (s : State) : Calm s s.emergencyDemand :=
  Calm.brakes s.emergencyDemand_lowers s.emergencyDemand_run s.emergencyDemand_faults (by simp)

theorem State.brakeFeedback_calm (s : State) (old : List Slot) : Calm s (s.brakeFeedback old) := by
  have h : ∀ t : State, t.run = s.run → t.faults = s.faults → t.prof = s.prof → ∀ w : BrakeSet,
      (t.apply w).run = s.run ∧ (t.apply w).faults = s.faults ∧ (t.apply w).prof = s.prof := by
    intro t h1 h2 h3 w; simp [h1, h2, h3]
  have key : (s.brakeFeedback old).run = s.run ∧ (s.brakeFeedback old).faults = s.faults
      ∧ (s.brakeFeedback old).prof = s.prof := by
    unfold State.brakeFeedback; simp only; split <;> split <;> simp
  exact Calm.brakes (s.brakeFeedback_lowers old) key.1 key.2.1 (by rw [key.2.2])

theorem State.formTarget_calm (s : State) (x : Stop) : Calm s (s.formTarget x) :=
  ⟨Lowers.same rfl, rfl, by simp [State.formTarget], rfl, rfl⟩

theorem State.reformTarget_calm (s : State) : Calm s s.reformTarget := by
  unfold State.reformTarget; split
  · split
    · exact Calm.refl s
    · exact s.formTarget_calm _
  · exact Calm.refl s

theorem State.takeCreepTarget_calm (s : State) (x : Int) : Calm s (s.takeCreepTarget x) := by
  unfold State.takeCreepTarget; split
  · rename_i r hr
    split
    · split
      · rename_i y _
        refine Calm.trans (t := s.modRun fun rc =>
          { rc with
            record := some { r with target := some y }
            approaching :=
              rc.approaching || (decide (rc.state = .running) && decide (y = .loop)) }) ?_ ?_
        · exact ⟨Lowers.same rfl, rfl, by simp [hr], rfl, rfl⟩
        · exact (State.formTarget_calm _ _).trans (Calm.same rfl rfl rfl rfl)
      · exact Calm.refl s
    · exact Calm.refl s
  · exact Calm.refl s

theorem State.evalDisagree_calm (s : State) : Calm s s.evalDisagree := Calm.same rfl rfl rfl rfl

theorem State.reference_calm (s : State) (x : Int) (zones : PerCar (List Zone)) :
    Calm s (s.reference x zones) := by
  unfold State.reference; simp only
  generalize hu : State.evalDisagree _ = u
  have h : Calm s u := by
    subst hu
    refine Calm.trans ?_ (State.evalDisagree_calm _)
    exact ⟨Lowers.same rfl, rfl, rfl, rfl, rfl⟩
  exact (h.trans (u.takeCreepTarget_calm x)).trans ⟨Lowers.same rfl, rfl, rfl, rfl, rfl⟩

theorem State.terminalReference_calm (s : State) : Calm s s.terminalReference := by
  unfold State.terminalReference; split
  · exact s.reference_calm _ _
  · exact Calm.refl s

theorem State.takeFalls_calm (s : State) : Calm s s.takeFalls := by
  refine ⟨Lowers.same rfl, rfl, rfl, ?_, rfl⟩
  simp only [State.stopDemanded, State.takeFalls, List.any_map]
  congr 1; funext e; simp only [Function.comp]; split <;> rfl

theorem State.returnToMain_calm (s : State) : Calm s s.returnToMain := by
  unfold State.returnToMain; split
  · exact Calm.same rfl rfl rfl rfl
  · exact Calm.refl s

theorem State.takeSources_calm (s : State) : Calm s s.takeSources := Calm.same rfl rfl rfl rfl

/-! ## Reports -/

theorem State.latch_run (s : State) (r : Report) :
    (s.latch r).run = s.run ∧ (s.latch r).brk = s.brk ∧ (s.latch r).prof = s.prof
      ∧ (s.latch r).store = s.store := by
  unfold State.latch; split <;> exact ⟨rfl, rfl, rfl, rfl⟩

theorem State.latches_run (rs : List Report) (s : State) :
    (rs.foldl State.latch s).run = s.run ∧ (rs.foldl State.latch s).brk = s.brk
      ∧ (rs.foldl State.latch s).prof = s.prof := by
  induction rs generalizing s with
  | nil => exact ⟨rfl, rfl, rfl⟩
  | cons r rs ih =>
    obtain ⟨h1, h2, h3, _⟩ := s.latch_run r
    obtain ⟨g1, g2, g3⟩ := ih (s.latch r)
    exact ⟨g1.trans h1, g2.trans h2, g3.trans h3⟩

theorem mem_stopDemanded {s : State} :
    s.stopDemanded = true ↔ ∃ e ∈ s.faults, 0 < e.cls.rank := by simp [State.stopDemanded]

/-- Settling never takes a demand for a stop away. -/
theorem Settles.stopDemanded {s t : State} (h : Settles s t) (d : s.stopDemanded = true) :
    t.stopDemanded = true := by
  obtain ⟨e, he, hr⟩ := mem_stopDemanded.1 d
  obtain ⟨e', he', f⟩ := h.old e he
  exact mem_stopDemanded.2 ⟨e', he', by rw [f.cls]; exact hr⟩

/-- A report that creates no entry of class SERVICE_STOP or higher. -/
def State.Mild (s : State) (r : Report) : Prop :=
  (∃ e ∈ s.faults, e.kind = r.kind) ∨ (s.store.active.classOf r.kind).rank = 0

theorem State.Mild.latch {s : State} {r : Report} (h : s.Mild r) (q : Report) :
    (s.latch q).Mild r := by
  rcases h with ⟨e, he, hk⟩ | h
  · obtain ⟨e', he', f⟩ := (s.latch_settles q).old e he
    exact .inl ⟨e', he', f.kind.trans hk⟩
  · exact .inr (by rw [(s.latch_run q).2.2.2]; exact h)

theorem State.Mild.stop {s : State} {r : Report} (h : s.Mild r)
    (d : (s.latch r).stopDemanded = true) : s.stopDemanded = true := by
  obtain ⟨e', he', hr⟩ := mem_stopDemanded.1 d
  unfold State.latch at he'
  split at he'
  · obtain ⟨e, he, rfl⟩ := List.mem_map.1 he'
    refine mem_stopDemanded.2 ⟨e, he, ?_⟩
    split at hr <;> exact hr
  · rename_i hn
    rcases mem_insertFault.1 he' with rfl | he
    · exfalso
      rcases h with ⟨e, he, hk⟩ | h
      · exact State.fault_eq_none.1 hn e he hk
      · simp only [State.newEntry] at hr; omega
    · exact mem_stopDemanded.2 ⟨e', he, hr⟩

theorem State.latches_mild (rs : List Report) (s : State) (h : ∀ r ∈ rs, s.Mild r)
    (d : (rs.foldl State.latch s).stopDemanded = true) : s.stopDemanded = true := by
  induction rs generalizing s with
  | nil => exact d
  | cons r rs ih =>
    refine (h r List.mem_cons_self).stop (ih (s.latch r) ?_ d)
    exact fun q hq => (h q (List.mem_cons_of_mem _ hq)).latch r

theorem State.mild_of_createsStop {s : State} {rs : List Report} (h : ¬ s.createsStop rs = true) :
    ∀ r ∈ rs, s.Mild r := by
  intro r hr
  simp only [State.createsStop, List.any_eq_true, not_exists, not_and, Bool.and_eq_true,
    decide_eq_true_eq] at h
  have := h r hr
  by_cases hn : s.fault r.kind = none
  · have h2 := this (by rw [hn]; rfl)
    exact .inr (by omega)
  · left
    by_contra hc
    exact hn (State.fault_eq_none.2 fun e he hk => hc ⟨e, he, hk⟩)

/-- Entry into a run state sets the reference to 0 where R115 says so. -/
theorem State.enterState_vRef (s : State) {st : RunState} (h : st.zeroReference = true)
    (f : Option Flavour) (c : Option StopClass) : (s.enterState st f c).prof.vRef = 0 := by
  simp [State.enterState, Profile.enter, h]

@[simp] theorem State.enterState_state (s : State) (st : RunState) (f : Option Flavour)
    (c : Option StopClass) : (s.enterState st f c).run.state = st := rfl

@[simp] theorem State.enterState_record (s : State) (st : RunState) (f : Option Flavour)
    (c : Option StopClass) : (s.enterState st f c).run.record = s.run.record := rfl

@[simp] theorem State.enterState_brk (s : State) (st : RunState) (f : Option Flavour)
    (c : Option StopClass) : (s.enterState st f c).brk = s.brk := rfl

@[simp] theorem State.enterState_faults (s : State) (st : RunState) (f : Option Flavour)
    (c : Option StopClass) : (s.enterState st f c).faults = s.faults := rfl

/-- What makes the laws hold in a state just entered. -/
theorem State.RunLaws.entered {s t : State} (hl : Lowers s t) (o : s.OutputLaw) (m : s.MarkLaw)
    (hoff : t.run.state.standing = true → s.brk.enable = false)
    (hstop : t.stopDemanded = true → t.run.state.isFault = true)
    (hrec : t.run.record.isSome = t.run.state.hasRecord)
    (hz : t.run.state.zeroReference = true → t.prof.vRef = 0) : State.RunLaws t where
  output := hl.output o
  marks := hl.marks m
  standing h := hl.off (hoff h)
  stop := hstop
  record := hrec
  zero := hz

theorem State.enterFaultHeld_inv {s : State} (o : s.OutputLaw) (m : s.MarkLaw)
    (e : s.brk.enable = false) : State.RunLaws s.enterFaultHeld :=
  State.RunLaws.entered (s := s) (Lowers.same rfl) o m (fun _ => e) (fun _ => rfl) rfl
    fun _ => State.enterState_vRef _ rfl _ _

theorem State.enterFaultStopping_inv {s : State} (o : s.OutputLaw) (m : s.MarkLaw)
    (c : StopClass) : State.RunLaws (s.enterFaultStopping c) := by
  have hr : (s.enterFaultStopping c).run.state = .faultStopping := by
    simp [State.enterFaultStopping]
  refine State.RunLaws.entered (s := s) ?_ o m ?_ ?_ ?_ ?_
  · exact Lowers.trans (t := (s.clearCalls.dropRun).enterState .faultStopping none (some c))
      (Lowers.same rfl) (State.startClass_lowers _ _)
  · rw [hr]; intro h; cases h
  · rw [hr]; intro _; rfl
  · rw [hr]; simp [State.enterFaultStopping, State.dropRun, RunState.hasRecord]
  · rw [hr]; intro h; cases h

theorem State.raiseClass_inv {s : State} (i : State.RunLaws s) (h : s.run.state = .faultStopping)
    (c : StopClass) : State.RunLaws (s.raiseClass c) := by
  have hr : (s.raiseClass c).run.state = .faultStopping := by simp [State.raiseClass]
  refine State.RunLaws.entered (s := s) ?_ i.output i.marks ?_ ?_ ?_ ?_
  · exact Lowers.trans (t := s.enterState .faultStopping none (some c)) (Lowers.same rfl)
      (State.startClass_lowers _ _)
  · rw [hr]; intro h; cases h
  · rw [hr]; intro _; rfl
  · have := i.record
    simp only [State.RecordLaw, h] at this
    rw [hr]; simp [State.raiseClass, this]
  · rw [hr]; intro h; cases h

/-- The reaction to a new entry of class SERVICE_STOP or higher leaves a fault state and keeps the
laws (R103). -/
theorem State.reactToFault_inv {s : State} (o : s.OutputLaw) (m : s.MarkLaw)
    (st : s.StandingLaw) (r : s.RecordLaw) (z : s.ZeroLaw) (c : StopClass) :
    State.RunLaws (s.reactToFault c) := by
  unfold State.reactToFault
  have hf (h : s.run.state.isFault = true) : State.RunLaws s := ⟨o, m, st, fun _ => h, r, z⟩
  split
  all_goals rename_i h
  all_goals first
    | exact s.enterFaultStopping_inv o m c
    | exact s.enterFaultHeld_inv o m (st (by rw [h]; rfl))
    | skip
  · split
    · exact s.raiseClass_inv (hf (by rw [h]; rfl)) h c
    · exact hf (by rw [h]; rfl)
  · exact hf (by rw [h]; rfl)

theorem State.takeReports_inv {s : State} (i : State.RunLaws s) (rs : List Report) :
    State.RunLaws (s.takeReports rs) := by
  obtain ⟨h1, h2, h3⟩ := State.latches_run rs s
  unfold State.takeReports; simp only
  generalize hs1 : rs.foldl State.latch s = s1 at h1 h2 h3
  have key : ∃ s2, (if s.latchesEmergency rs then s1.emergencyDemand else s1) = s2
      ∧ s2.run = s.run ∧ Lowers s s2 ∧ s2.faults = s1.faults ∧ s2.prof = s.prof := by
    split
    · exact ⟨_, rfl, by simp [h1], (Lowers.same h2).trans s1.emergencyDemand_lowers, by simp,
        by simp [h3]⟩
    · exact ⟨_, rfl, h1, Lowers.same h2, rfl, h3⟩
  obtain ⟨s2, hs2, hr, hl, hf, hp⟩ := key
  rw [hs2]
  have o := hl.output i.output
  have m := hl.marks i.marks
  have st : s2.StandingLaw := by intro h; rw [hr] at h; exact hl.off (i.standing h)
  have rc : s2.RecordLaw := by unfold State.RecordLaw; rw [hr]; exact i.record
  have z : s2.ZeroLaw := by intro h; rw [hr] at h; rw [hp]; exact i.zero h
  split
  · exact s2.reactToFault_inv o m st rc z _
  · rename_i hn
    refine ⟨o, m, st, ?_, rc, z⟩
    intro hd
    rw [hr]
    apply i.stop
    apply State.latches_mild rs s (State.mild_of_createsStop hn)
    rw [hs1]; unfold State.stopDemanded at hd ⊢; rw [← hf]; exact hd

theorem State.report_inv {s : State} (i : State.RunLaws s) (r : Report) : State.RunLaws (s.report r) :=
  State.takeReports_inv i [r]

theorem State.refresh_inv {s : State} (i : State.RunLaws s) : State.RunLaws s.refresh :=
  State.takeReports_inv (s.takeFalls_calm.inv i) _

theorem State.takeOutputs_inv {s : State} (i : State.RunLaws s) (old : List Slot) :
    State.RunLaws (s.takeOutputs old) := by
  unfold State.takeOutputs; simp only
  refine State.takeReports_inv ((State.brakeFeedback_calm _ _).inv ?_) _
  have h : Calm s (s.modProf fun p => { p with wind := s.out 9 }) := Calm.same rfl rfl rfl rfl
  exact h.inv i

theorem State.bankStep_inv {s : State} (i : State.RunLaws s) : State.RunLaws s.bankStep :=
  State.takeOutputs_inv (s.takeSources_calm.inv i) _

theorem State.failover_inv {s : State} (i : State.RunLaws s) : State.RunLaws s.failover := by
  unfold State.failover; split
  · refine State.report_inv (Calm.inv (Calm.trans ?_ (State.evalDisagree_calm _)) i) _
    exact ⟨Lowers.same rfl, rfl, rfl, rfl, rfl⟩
  · exact i

theorem State.detect_inv {s : State} (i : State.RunLaws s) : State.RunLaws s.detect :=
  State.refresh_inv ((State.terminalReference_calm _).inv
    (State.failover_inv (State.bankStep_inv (s.returnToMain_calm.inv i))))

/-! ## The Run Controller's moves -/

theorem State.RunLaws.not_stop {s : State} (i : State.RunLaws s) (h : s.run.state.isFault = false) :
    s.stopDemanded = false := by
  have := i.stop
  cases hd : s.stopDemanded
  · rfl
  · rw [this hd] at h; cases h

theorem State.enterParked_inv {s : State} (o : s.OutputLaw) (m : s.MarkLaw)
    (e : s.brk.enable = false) (d : s.stopDemanded = false) : State.RunLaws s.enterParked :=
  State.RunLaws.entered (s := s) (Lowers.same rfl) o m (fun _ => e)
    (fun h => absurd (show s.stopDemanded = true from h) (by simp [d])) rfl
    fun _ => State.enterState_vRef _ rfl _ _

theorem State.serveDwell_same (s : State) (x : Stop) (ids : List Ident) (err : PerCar Int) :
    (s.serveDwell x ids err).run = s.run ∧ (s.serveDwell x ids err).brk = s.brk
      ∧ (s.serveDwell x ids err).faults = s.faults := by
  unfold State.serveDwell; split <;> exact ⟨rfl, rfl, rfl⟩

theorem State.enterDwell_inv {s : State} (o : s.OutputLaw) (m : s.MarkLaw)
    (e : s.brk.enable = false) (d : s.stopDemanded = false) (x : Stop) (ids : List Ident) :
    State.RunLaws (s.enterDwell x ids) := by
  obtain ⟨_, h2, h3⟩ := s.serveDwell_same x ids (s.stopErrors x)
  have key (f : RunControl → RunControl) (hf : ∀ r, (f r).record = none) :
      State.RunLaws (((s.serveDwell x ids (s.stopErrors x)).modRun f).enterState .dwell) := by
    refine State.RunLaws.entered (s := s) (Lowers.same h2) o m (fun _ => e) ?_ ?_ ?_
    · intro h
      have : s.stopDemanded = true := by
        unfold State.stopDemanded at h ⊢; simpa [h3] using h
      simp [d] at this
    · simp [hf, RunState.hasRecord]
    · intro _; exact State.enterState_vRef _ rfl _ _
  unfold State.enterDwell; simp only; split
  · exact State.report_inv (key _ fun _ => rfl) _
  · exact key _ fun _ => rfl

theorem State.enterPreparing_inv {s : State} (o : s.OutputLaw) (m : s.MarkLaw)
    (e : s.brk.enable = false) (d : s.stopDemanded = false) (md : Mode) (dir : Dir)
    (x : Option Stop) (ids : List Ident) : State.RunLaws (s.enterPreparing md dir x ids) := by
  have key (f : RunControl → RunControl) (hf : ∀ r, (f r).record.isSome = true)
      (hst : ∀ r, (f r).state = r.state) :
      State.RunLaws ((s.clearMarks.enterState .preparing).modRun f) := by
    refine State.RunLaws.entered (s := s) (Lowers.same rfl) o m (fun _ => e) ?_ ?_ ?_
    · intro h
      exact absurd (show s.stopDemanded = true from h) (by simp [d])
    · simp [hf, hst, RunState.hasRecord]
    · intro _; exact State.enterState_vRef _ rfl _ _
  unfold State.enterPreparing; simp only; split
  · exact (State.formTarget_calm _ _).inv (key _ (fun _ => rfl) fun _ => rfl)
  · exact key _ (fun _ => rfl) fun _ => rfl

theorem State.enterReleasing_inv {s : State} (m : s.MarkLaw) (d : s.stopDemanded = false)
    (r : s.run.record.isSome = true) : State.RunLaws s.enterReleasing where
  output := fun _ => rfl
  marks := ⟨Brake.release_marks m.1 _ _ _, Brake.release_marks m.2 _ _ _⟩
  standing := by intro h; cases h
  stop := by intro h; exact absurd (show s.stopDemanded = true from h) (by simp [d])
  record := r
  zero := fun _ => State.enterState_vRef _ rfl _ _

theorem State.exitPreparing_inv {s : State} (i : State.RunLaws s) (h : s.run.state = .preparing)
    (r : RunRecord) : State.RunLaws (s.exitPreparing r) := by
  have d := i.not_stop (by rw [h]; rfl)
  unfold State.exitPreparing; simp only
  apply State.enterReleasing_inv
  · split <;> exact i.marks
  · split <;> exact d
  · split <;> rfl

theorem State.enterRunning_inv {s : State} (i : State.RunLaws s) (h : s.run.state = .releasing) :
    State.RunLaws s.enterRunning := by
  have d := i.not_stop (by rw [h]; rfl)
  unfold State.enterRunning; simp only
  refine State.RunLaws.entered (s := s) (Lowers.same rfl) i.output i.marks (fun h => by cases h) ?_ ?_ ?_
  · intro h'; exact absurd (show s.stopDemanded = true from h') (by simp [d])
  · have := i.record; simp only [State.RecordLaw, h] at this; exact this
  · intro h; cases h

/-- A move between two states of motion keeps the laws. -/
theorem State.enterMoving_inv {s : State} (i : State.RunLaws s) (hf : s.run.state.isFault = false)
    (hr : s.run.record.isSome = true) (st : RunState) (hs : st.standing = false)
    (hz : st.zeroReference = false) (hrec : st.hasRecord = true) (f : Option Flavour) :
    State.RunLaws (s.enterState st f) := by
  have d := i.not_stop hf
  refine State.RunLaws.entered (s := s) (Lowers.same rfl) i.output i.marks ?_ ?_ ?_ ?_
  · simp [hs]
  · intro h'; exact absurd (show s.stopDemanded = true from h') (by simp [d])
  · simp [hr, hrec]
  · simp [hz]

theorem State.enterSettling_inv {s : State} (i : State.RunLaws s) (hf : s.run.state.isFault = false)
    (hr : s.run.record.isSome = true) (f : Flavour) : State.RunLaws (s.enterSettling f) :=
  Calm.inv (s := s.enterState .settling (some f)) ⟨Lowers.same rfl, rfl, rfl, rfl, rfl⟩
    (State.enterMoving_inv i hf hr .settling rfl rfl rfl _)

theorem State.endSettling_inv {s : State} (i : State.RunLaws s) (h : s.run.state = .settling) :
    State.RunLaws s.endSettling := by
  have i1 := s.disableDrive_calm.inv i
  have d := i1.not_stop (by simp [h, RunState.isFault])
  have hr : s.disableDrive.run.record.isSome = true := by
    have := i1.record; simp only [State.RecordLaw] at this; rw [this]; simp [h, RunState.hasRecord]
  have e := s.disableDrive_off.1
  unfold State.endSettling; simp only
  repeat' split
  all_goals first
    | exact State.enterDwell_inv i1.output i1.marks e d _ _
    | exact State.enterParked_inv i1.output i1.marks e d
    | skip
  refine State.RunLaws.entered (s := s.disableDrive) (Lowers.same rfl) i1.output i1.marks (fun _ => e)
    ?_ ?_ ?_
  · intro h'; exact absurd (show s.disableDrive.stopDemanded = true from h') (by simp [d])
  · exact hr
  · intro _; exact State.enterState_vRef _ rfl _ _

theorem State.runSettling_inv {s : State} (i : State.RunLaws s) (h : s.run.state = .settling) :
    State.RunLaws s.runSettling := by
  unfold State.runSettling; simp only; split <;> split
  · exact State.endSettling_inv ((s.apply_calm _).inv i) (by simp [h])
  · exact (s.apply_calm _).inv i
  · exact State.endSettling_inv i h
  · exact i

theorem State.runFaultStopping_inv {s : State} (i : State.RunLaws s) (h : s.run.state = .faultStopping) :
    State.RunLaws s.runFaultStopping := by
  unfold State.runFaultStopping; simp only
  have h1 : Calm s (if s.classApplies then s.classApply else s) := by
    split
    · exact s.classApply_calm
    · exact Calm.refl s
  generalize (if s.classApplies then s.classApply else s) = s1 at h1
  have h2 : Calm s (if s1.brakesDone ∧ s1.brk.enable = true then s1.disableDrive else s1) := by
    split
    · exact h1.trans s1.disableDrive_calm
    · exact h1
  generalize (if s1.brakesDone ∧ s1.brk.enable = true then s1.disableDrive else s1) = s2 at h2
  have i2 := h2.inv i
  split
  · rename_i hc
    have hr : s2.run.record.isSome = false := by
      have := i2.record; simp only [State.RecordLaw] at this
      rw [this, h2.state, h]; rfl
    exact State.RunLaws.entered (s := s2) (Lowers.same rfl) i2.output i2.marks (fun _ => hc.2.2)
      (fun _ => rfl) hr fun _ => State.enterState_vRef _ rfl _ _
  · exact i2

theorem State.arbitrate_inv {s : State} (i : State.RunLaws s) : State.RunLaws s.arbitrate := by
  have h1 : Calm s (s.modRun fun r => { r with arbitrate := false }) :=
    ⟨Lowers.same rfl, rfl, rfl, rfl, rfl⟩
  have i1 := h1.inv i
  unfold State.arbitrate; simp only
  generalize s.modRun (fun r => { r with arbitrate := false }) = s1 at i1
  split
  · rename_i hm
    simp only [State.mayArbitrate, Bool.and_eq_true, decide_eq_true_eq, Bool.not_eq_true'] at hm
    have hp : s1.run.state = .parked := hm.1.1.1.1.1.1
    have d : s1.stopDemanded = false := hm.1.1.1.1.1.2
    have e := i1.standing (by rw [hp]; rfl)
    unfold State.takeChoice; split
    · exact i1
    · exact State.enterDwell_inv i1.output i1.marks e d _ _
    · exact State.enterPreparing_inv i1.output i1.marks e d _ _ _ _
  · exact i1

theorem State.runStep_inv {s : State} (i : State.RunLaws s) : State.RunLaws s.runStep := by
  unfold State.runStep
  split
  all_goals rename_i h
  · split
    · exact State.arbitrate_inv i
    · exact i
  · split
    · split
      · exact State.exitPreparing_inv i h _
      · exact i
    · exact i
  · split
    · exact State.enterRunning_inv i h
    · exact i
  · exact i
  · exact i
  · exact i
  · exact i
  · exact State.runSettling_inv i h
  · split
    · exact State.enterParked_inv i.output i.marks (i.standing (by rw [h]; rfl))
        (i.not_stop (by rw [h]; rfl))
    · exact i
  · exact State.runFaultStopping_inv i h
  · split
    · exact i
    · rename_i hd
      exact State.enterParked_inv (s := s.modBrk fun u => { u with rail := false })
        i.output i.marks (i.standing (by rw [h]; rfl)) (by simpa [State.stopDemanded] using hd)

theorem State.rounds_inv {s : State} (n : Nat) (i : State.RunLaws s) : State.RunLaws (State.rounds n s) := by
  induction n generalizing s with
  | zero => exact i
  | succ n ih => exact ih (State.runStep_inv (State.detect_inv i))

/-- The laws hold after every event that settles, if they held before. -/
theorem State.settle_inv {s : State} (i : State.RunLaws s) : State.RunLaws s.settle := State.rounds_inv 8 i

end Sys2Proof.Machine
end

