-- ==== Sys2Proof/Laws/Bodies.lean ====
section
/-!
SUPPORT. How the body of each command keeps the laws of outputs, run state, Run Record, faults and
reference, one lemma for each block's part in it.
-/

namespace Sys2Proof.Machine

/-! ## Events -/

/-- The end of an event is calm. -/
theorem Sends.calm {s t : State} (h : Sends s t) : Calm s t where
  lowers := Lowers.same h.brk
  state := by
    have := congrArg RunControl.state h.run; exact this
  record := by
    have := congrArg (fun r => r.record.isSome) h.run; exact this
  stop := by unfold State.stopDemanded; rw [h.faults]
  vRef := by rw [h.prof]

/-- An event keeps the laws where its body does. -/
theorem State.event_inv {s : State} (i : s.RunLaws) (dt : Nat) {body : State → State}
    (h : ∀ t : State, t.RunLaws → (body t).RunLaws) : (s.event dt body).RunLaws := by
  have ia : (s.advance dt).RunLaws := (Calm.same rfl rfl rfl rfl : Calm s (s.advance dt)).inv i
  unfold State.event
  split
  · exact i
  · exact (State.announce_sends _ _).calm.inv (h _ ia)

/-- A step that leaves run, brakes, faults and reference alone keeps the laws. -/
theorem State.RunLaws.same {s t : State} (i : s.RunLaws) (hr : t.run = s.run) (hb : t.brk = s.brk)
    (hf : t.faults = s.faults) (hv : t.prof.vRef = s.prof.vRef) : t.RunLaws :=
  (Calm.same hr hb hf hv).inv i

/-- A step of the run's timers and marks alone keeps the laws. -/
theorem State.RunLaws.timers {s : State} (i : s.RunLaws) (f : RunControl → RunControl)
    (hs : (f s.run).state = s.run.state) (hr : (f s.run).record.isSome = s.run.record.isSome) :
    (s.modRun f).RunLaws :=
  Calm.inv (s := s) ⟨Lowers.same rfl, hs, hr, rfl, rfl⟩ i

/-! ## Start-up and holding -/

theorem State.fresh_inv (pending : List Instr) (st : Store) : (State.fresh pending st).RunLaws where
  output := by intro h; simp [State.fresh, BrakeUnit.afterReset, Brake.afterReset, Brake.output] at h
  marks := by
    constructor <;> intro h <;> simp [State.fresh, BrakeUnit.afterReset, Brake.afterReset] at h
  standing := fun _ => rfl
  stop := by intro h; simp [State.stopDemanded, State.fresh] at h
  record := rfl
  zero := fun _ => rfl

theorem State.startUp_inv (s : State) : s.startUp.RunLaws := by
  unfold State.startUp State.start
  refine (State.announce_sends _ _).calm.inv (State.settle_inv (State.takeOutputs_inv ?_ _))
  exact State.RunLaws.same (s := State.fresh s.pending s.store.startUp) (State.fresh_inv _ _)
    rfl rfl rfl rfl

theorem State.hold_inv {s : State} (i : s.RunLaws) : s.hold.RunLaws where
  output := by intro h; simp [State.hold, BrakeUnit.afterReset, Brake.afterReset, Brake.output] at h
  marks := by
    constructor <;> intro h <;> simp [State.hold, BrakeUnit.afterReset, Brake.afterReset] at h
  standing := fun _ => rfl
  stop := i.stop
  record := i.record
  zero := i.zero

/-! ## Checkpoint edges and inputs -/

theorem State.matchEdge_calm (s : State) (c : Checkpoint) (j : Nat) (k : Car) :
    Calm s (s.matchEdge c j k) := by
  unfold State.matchEdge; simp only
  split
  · exact Calm.refl s
  · split
    · exact Calm.same rfl rfl rfl rfl
    · refine Calm.trans ?_ (State.reformTarget_calm _)
      exact Calm.same rfl rfl rfl rfl

theorem State.checkpointEdge_inv {s : State} (i : s.RunLaws) (c : Checkpoint) (j : Nat) :
    (s.checkpointEdge c j).RunLaws := by
  unfold State.checkpointEdge State.matchedEdge State.branchReference; simp only
  repeat' split
  all_goals first
    | exact (s.matchEdge_calm _ _ _).inv i
    | exact State.report_inv i _
    | exact (s.reference_calm _ _).inv i
    | exact i

theorem State.inputEdge_inv {s : State} (i : s.RunLaws) (n : Fin 32) : (s.inputEdge n).RunLaws := by
  unfold State.inputEdge
  split
  · exact State.checkpointEdge_inv i _ _
  · exact i

theorem State.RunLaws.foldl {α : Type} {f : State → α → State}
    (h : ∀ (s : State) (a : α), s.RunLaws → (f s a).RunLaws) (l : List α) :
    ∀ s : State, s.RunLaws → (l.foldl f s).RunLaws := by
  induction l with
  | nil => exact fun s i => i
  | cons a l ih => exact fun s i => ih _ (h s a i)

theorem State.seeInputs_inv {s : State} (i : s.RunLaws) (seen : List (Fin 32 × Nat)) :
    (State.seeInputs seen s).RunLaws :=
  State.settle_inv (State.RunLaws.foldl (fun _ n h => State.inputEdge_inv h n) _ _
    (i.same rfl rfl rfl rfl))

/-! ## The sample -/

theorem State.passTest_inv {s : State} (i : s.RunLaws) (new : Sample) (k : Car)
    (cj : Checkpoint × Nat) : (State.passTest new k s cj).RunLaws := by
  unfold State.passTest
  split
  · unfold State.missPass
    refine State.takeReports_inv ?_ _
    exact i.same rfl rfl rfl rfl
  · exact i

theorem State.sampleTests_inv {s : State} (i : s.RunLaws) (new : Sample) :
    (s.sampleTests new).RunLaws := by
  have hp : (s.passTests new).RunLaws := by
    unfold State.passTests; simp only
    split
    · exact State.RunLaws.foldl (fun _ c h => State.passTest_inv h _ _ c) _ _
        (State.RunLaws.foldl (fun _ c h => State.passTest_inv h _ _ c) _ _ i)
    · exact i
  unfold State.sampleTests
  split
  · exact (hp.same rfl rfl rfl rfl : ((s.passTests new).updateZones new).RunLaws).same rfl rfl rfl rfl
  · exact i

theorem State.restartStall_calm (s : State) : Calm s s.restartStall := by
  unfold State.restartStall
  split
  · exact Calm.same rfl rfl rfl rfl
  · exact Calm.refl s

theorem State.updateConditions_calm (s : State) : Calm s s.updateConditions :=
  s.restartStall_calm.trans (Calm.same rfl rfl rfl rfl)

theorem State.reckonSample_inv {s : State} (i : s.RunLaws) : s.reckonSample.RunLaws := by
  unfold State.reckonSample; simp only
  refine State.RunLaws.same (s := State.sampleTests _ _) (State.sampleTests_inv ?_ _) rfl rfl rfl rfl
  exact State.detect_inv ((State.updateConditions_calm _).inv (i.same rfl rfl rfl rfl))

theorem State.permit_calm (s : State) : Calm s s.permit := by
  unfold State.permit; simp only
  split <;> exact Calm.same rfl rfl rfl rfl

theorem State.sampleStandstill_calm (s : State) : Calm s s.sampleStandstill := by
  unfold State.sampleStandstill
  split
  · split <;> exact ⟨Lowers.same rfl, rfl, rfl, rfl, rfl⟩
  · exact ⟨Lowers.same rfl, rfl, rfl, rfl, rfl⟩

/-- A Run Record is present in a state of a run. -/
theorem State.RunLaws.hasRecord {s : State} (i : s.RunLaws) (h : s.run.state.hasRecord = true) :
    s.run.record.isSome = true := by
  have := i.record; unfold State.RecordLaw at this; rw [this, h]

theorem State.testDistance_inv {s : State} (i : s.RunLaws) : s.testDistance.RunLaws := by
  unfold State.testDistance
  split
  · exact i
  · split
    · rename_i h
      have hf : s.run.state.isFault = false := by rw [h]; rfl
      have hr := i.hasRecord (by rw [h]; rfl)
      split
      · exact State.enterSettling_inv i hf hr _
      · split
        · exact State.enterMoving_inv i hf hr .finalApproach rfl rfl rfl _
        · exact i
    · rename_i h
      split
      · exact State.enterSettling_inv i (by rw [h]; rfl) (i.hasRecord (by rw [h]; rfl)) _
      · exact i
    · exact i

theorem State.formReference_inv {s : State} (i : s.RunLaws) : s.formReference.RunLaws where
  output := i.output
  marks := i.marks
  standing := i.standing
  stop := i.stop
  record := i.record
  zero := by
    intro h
    have hz : s.refMagnitude = 0 := by
      have h' : s.run.state.zeroReference = true := h
      unfold State.refMagnitude; simp only
      split <;> simp_all [RunState.zeroReference]
    simp [State.formReference, State.modProf, hz]

theorem State.endSuspendRamp_inv {s : State} (i : s.RunLaws) : s.endSuspendRamp.RunLaws := by
  unfold State.endSuspendRamp
  split
  · rename_i h
    exact State.enterSettling_inv i (by rw [h.1]; rfl) (i.hasRecord (by rw [h.1]; rfl)) _
  · exact i

theorem State.sendDrive_calm (s : State) : Calm s s.sendDrive :=
  ⟨⟨.inl rfl, id, id, id⟩, rfl, rfl, rfl, rfl⟩

theorem State.supervise_calm (s : State) : Calm s s.supervise := by
  unfold State.supervise
  split
  · exact Calm.same rfl rfl rfl rfl
  · exact Calm.refl s

theorem State.takePublished_inv {s : State} (i : s.RunLaws) : s.takePublished.RunLaws :=
  (State.supervise_calm _).inv ((State.sendDrive_calm _).inv (State.endSuspendRamp_inv
    (State.formReference_inv (State.settle_inv (State.testDistance_inv
      ((State.sampleStandstill_calm _).inv (s.permit_calm.inv i)))))))

theorem State.failChecks_inv {s : State} (i : s.RunLaws) (failed : List Check) :
    (s.failChecks failed).RunLaws := by
  unfold State.failChecks; simp only
  split
  · exact i
  · have i1 := State.report_inv i { kind := .brakeIneffective, brakes := brakesOf failed }
    have i2 : (if (failed.any fun c => !c.brakes.emergency) = true then
        (s.report { kind := .brakeIneffective, brakes := brakesOf failed }).apply ⟨false, true⟩
        else s.report { kind := .brakeIneffective, brakes := brakesOf failed }).RunLaws := by
      split
      · exact (State.apply_calm _ _).inv i1
      · exact i1
    revert i2
    generalize (if (failed.any fun c => !c.brakes.emergency) = true then
        (s.report { kind := .brakeIneffective, brakes := brakesOf failed }).apply ⟨false, true⟩
        else s.report { kind := .brakeIneffective, brakes := brakesOf failed }) = t
    intro i2
    split
    · exact Calm.inv (s := t) ⟨⟨.inl rfl, id, id, id⟩, rfl, rfl, rfl, rfl⟩ i2
    · exact i2

theorem State.decideChecks_inv {s : State} (i : s.RunLaws) (due : Check → Bool) :
    (s.decideChecks due).RunLaws := by
  unfold State.decideChecks; simp only
  refine State.failChecks_inv ?_ _
  exact Calm.inv (s := s) ⟨⟨.inl rfl, id, id, id⟩, rfl, rfl, rfl, rfl⟩ i

theorem State.takeSample_inv {s : State} (i : s.RunLaws) : s.takeSample.RunLaws := by
  unfold State.takeSample
  split
  · exact State.settle_inv (State.decideChecks_inv (State.takePublished_inv (State.reckonSample_inv i)) _)
  · exact i

/-! ## Timers -/

theorem State.takeStandstill_inv {s : State} (i : s.RunLaws) : s.takeStandstill.RunLaws := by
  unfold State.takeStandstill
  split
  · refine State.settle_inv ?_
    unfold State.expireStandstill
    split <;> exact i.timers _ rfl rfl
  · exact i

theorem State.takeFilterExpiry_inv {s : State} (i : s.RunLaws) (which : List (Fin 14)) :
    (State.takeFilterExpiry which s).RunLaws := by
  unfold State.takeFilterExpiry
  refine State.settle_inv (State.takeOutputs_inv ?_ _)
  exact i.same rfl rfl rfl rfl

theorem State.expireChecks_inv {s : State} (i : s.RunLaws) : s.expireChecks.RunLaws := by
  unfold State.expireChecks
  split
  · exact Calm.inv (s := s) ⟨⟨.inl rfl, id, id, id⟩, rfl, rfl, rfl, rfl⟩ i
  · exact State.settle_inv (State.decideChecks_inv i _)

theorem State.takePrepareExpiry_inv {s : State} (i : s.RunLaws) : s.takePrepareExpiry.RunLaws := by
  unfold State.takePrepareExpiry
  split
  · rename_i h
    have d := i.not_stop (by rw [h.2]; rfl)
    exact State.settle_inv (State.report_inv
      (State.enterParked_inv (s := s.removeServed _) i.output i.marks
        (i.standing (by rw [h.2]; rfl)) d) _)
  · exact i

theorem State.takeDwellExpiry_inv {s : State} (i : s.RunLaws) : s.takeDwellExpiry.RunLaws := by
  unfold State.takeDwellExpiry
  split
  · exact State.settle_inv (i.timers _ rfl rfl)
  · exact i

theorem State.takeCreepLapse_inv {s : State} (i : s.RunLaws) : s.takeCreepLapse.RunLaws := by
  unfold State.takeCreepLapse State.lapse
  split
  · split
    · rename_i h
      exact State.settle_inv (State.enterParked_inv i.output i.marks (i.standing (by rw [h]; rfl))
        (i.not_stop (by rw [h]; rfl)))
    · rename_i h
      refine State.settle_inv (State.enterSettling_inv i ?_ (i.hasRecord ?_) _) <;> rw [h] <;> rfl
    · rename_i h
      refine State.settle_inv (State.enterSettling_inv i ?_ (i.hasRecord ?_) _) <;> rw [h] <;> rfl
    · rename_i h
      refine State.settle_inv (State.enterSettling_inv i ?_ (i.hasRecord ?_) _) <;> rw [h] <;> rfl
    · exact i.timers _ rfl rfl
  · exact i

theorem Brake.releaseExpired_marks {b : Brake} (h : b.MarkLaw) (is : Bool) :
    (b.releaseExpired is).MarkLaw := by
  unfold Brake.releaseExpired; split <;> exact h

theorem State.takeReleaseExpiry_inv {s : State} (i : s.RunLaws) : s.takeReleaseExpiry.RunLaws := by
  unfold State.takeReleaseExpiry; simp only
  split
  · refine State.settle_inv (State.report_inv ?_ _)
    refine Calm.inv (s := s) ⟨?_, rfl, rfl, rfl, rfl⟩ i
    have ho : ∀ (b : Brake) (is : Bool), (b.releaseExpired is).output = b.output := by
      intro b is; unfold Brake.releaseExpired; split <;> rfl
    exact ⟨.inl rfl, by simp [ho], by simp [ho], fun m =>
      ⟨Brake.releaseExpired_marks m.1 _, Brake.releaseExpired_marks m.2 _⟩⟩
  · exact i

theorem State.takeApplyExpiry_inv {s : State} (i : s.RunLaws) : s.takeApplyExpiry.RunLaws := by
  unfold State.takeApplyExpiry; simp only
  split
  · refine State.settle_inv (State.report_inv ?_ _)
    refine Calm.inv (s := s) ⟨?_, rfl, rfl, rfl, rfl⟩ i
    have ho : ∀ (b : Brake) (is : Bool), (b.applyExpired is).output = b.output := by
      intro b is; unfold Brake.applyExpired; split <;> rfl
    have hm : ∀ (b : Brake), b.MarkLaw → (b.applyExpired (b.dueIn .applying s.time)).MarkLaw := by
      intro b m
      unfold Brake.applyExpired
      split
      · rename_i h
        intro _
        simp only [Brake.dueIn, Bool.and_eq_true, decide_eq_true_eq] at h
        exact h.1
      · exact m
    exact ⟨.inl rfl, by simp [ho], by simp [ho], fun m => ⟨hm _ m.1, hm _ m.2⟩⟩
  · exact i

theorem State.takeQuickStop_inv {s : State} (i : s.RunLaws) : s.takeQuickStop.RunLaws := by
  unfold State.takeQuickStop
  split
  · exact State.settle_inv (s.classApply_calm.inv i)
  · exact i

/-! ## Links -/

theorem State.modLink_inv {s : State} (i : s.RunLaws) (p : Party) (f : Link → Link) :
    (s.modLink p f).RunLaws := i.same rfl rfl rfl rfl

theorem State.takeLinkTimeout_inv {s : State} (i : s.RunLaws) (p : Party) :
    (State.takeLinkTimeout p s).RunLaws := by
  unfold State.takeLinkTimeout
  split
  · split
    · exact State.settle_inv (i.same rfl rfl rfl rfl)
    · exact State.modLink_inv i _ _
  · exact i

theorem State.wantArbitration_inv {s : State} (i : s.RunLaws) : s.wantArbitration.RunLaws :=
  i.timers _ rfl rfl

theorem State.traffic_inv {s : State} (i : s.RunLaws) (p : Party) : (s.traffic p).RunLaws := by
  have i1 : (s.restartTimer p).RunLaws := i.same rfl rfl rfl rfl
  unfold State.traffic; simp only
  split
  · exact i1
  · unfold State.returnLink; simp only
    have i2 := State.modLink_inv i1 p fun l => { l with up := true }
    refine State.settle_inv ?_
    split
    · exact State.wantArbitration_inv i2
    · exact i2

theorem State.takeStatusTimer_inv {s : State} (i : s.RunLaws) : s.takeStatusTimer.RunLaws := by
  unfold State.takeStatusTimer
  split
  · refine Calm.inv (s := s) ⟨Lowers.same rfl, rfl, rfl, ?_, rfl⟩ i
    show (State.markReported s).faults.any _ = s.faults.any _
    unfold State.markReported; simp only
    split
    · rw [List.any_map]; rfl
    · rfl
  · exact i

theorem State.takeCarPeriod_inv {s : State} (i : s.RunLaws) (k : Car) :
    (State.takeCarPeriod k s).RunLaws := by
  unfold State.takeCarPeriod
  split
  · exact (s.sendCar_sends k).calm.inv i
  · exact i

theorem State.takeLoopPeriod_inv {s : State} (i : s.RunLaws) : s.takeLoopPeriod.RunLaws := by
  unfold State.takeLoopPeriod
  split
  · exact s.sendLoop_sends.calm.inv i
  · exact i

/-! ## Requests -/

theorem State.accept_inv {s : State} (i : s.RunLaws) : s.accept.1.RunLaws := i

theorem State.refuse_inv {s : State} (i : s.RunLaws) (c : ReplyCode) : (s.refuse c).1.RunLaws := i

theorem State.arbitrating_inv {s : State} (i : s.RunLaws) : s.arbitrating.RunLaws := by
  unfold State.arbitrating
  split
  · exact State.settle_inv (State.wantArbitration_inv i)
  · exact i

theorem State.modRecord_inv {s : State} (i : s.RunLaws) (f : RunRecord → RunRecord) :
    (s.modRecord f).RunLaws := i.timers _ rfl (by simp)

theorem State.takeCall_inv {s : State} (i : s.RunLaws) (id : Ident) (side : Side) :
    (s.takeCall id side).RunLaws := by
  unfold State.takeCall
  split
  · exact i.same rfl rfl rfl rfl
  · have i1 : ({ s with queue := s.queue ++ [Entry.mk id side false] } : State).RunLaws :=
      i.same rfl rfl rfl rfl
    unfold State.addServed
    split
    · split
      · exact State.modRecord_inv i1 _
      · exact i1
    · exact i1

theorem State.merge_inv {s : State} (i : s.RunLaws) : s.merge.RunLaws := by
  unfold State.merge; simp only
  refine State.RunLaws.same (s := State.formTarget _ .loop) ?_ rfl rfl rfl rfl
  exact (State.formTarget_calm _ _).inv (i.timers _ rfl (by simp))

theorem State.takeRunRequest_inv {s : State} (i : s.RunLaws) (id : Ident) (side : Side) :
    (s.takeRunRequest id side).1.RunLaws := by
  unfold State.takeRunRequest
  split
  · exact State.merge_inv (State.takeCall_inv i _ _)
  · exact State.wantArbitration_inv (State.takeCall_inv i _ _)

theorem State.answerRun_inv {s : State} (i : s.RunLaws) (cand : Option (Ident × Side)) :
    (s.answerRun cand).1.RunLaws := by
  unfold State.answerRun
  split
  · exact i
  · exact i
  · split
    · exact i
    · simp only
      split
      · exact State.settle_inv (State.takeRunRequest_inv i _ _)
      · exact State.takeRunRequest_inv i _ _

theorem State.removeEntries_inv {s : State} (i : s.RunLaws) (gone : Entry → Bool) :
    (s.removeEntries gone).RunLaws :=
  State.modRecord_inv (s := { s with queue := s.queue.filter fun e => !gone e })
    (i.same rfl rfl rfl rfl) _

theorem State.answerCancelRun_inv {s : State} (i : s.RunLaws) : s.answerCancelRun.1.RunLaws := by
  unfold State.answerCancelRun
  split
  · rename_i h
    exact State.accept_inv (State.settle_inv (State.enterParked_inv i.output i.marks
      (i.standing (by rw [h]; rfl)) (i.not_stop (by rw [h]; rfl))))
  · exact State.refuse_inv i _

theorem State.answerCancelEntry_inv {s : State} (i : s.RunLaws) (x : Option Stop) :
    (s.answerCancelEntry x).1.RunLaws := by
  unfold State.answerCancelEntry
  split
  · exact State.arbitrating_inv (State.removeEntries_inv i _)
  · exact State.refuse_inv i _

theorem State.answerCancel_inv {s : State} (i : s.RunLaws) (pl : List Byte) :
    (s.answerCancel pl).1.RunLaws := by
  unfold State.answerCancel
  split
  · exact State.answerCancelEntry_inv i _
  · unfold State.answerCancelAll
    exact State.arbitrating_inv (State.removeEntries_inv i _)
  · exact State.answerCancelRun_inv i
  · exact State.refuse_inv i _

theorem State.answerSuspend_inv {s : State} (i : s.RunLaws) : s.answerSuspend.1.RunLaws := by
  unfold State.answerSuspend
  split
  · rename_i h
    split
    · refine State.accept_inv ?_
      exact State.enterMoving_inv i (by rw [h]; rfl) (i.hasRecord (by rw [h]; rfl)) .suspending
        rfl rfl rfl _
    · exact State.refuse_inv i _
  · exact State.refuse_inv i _
  · exact State.refuse_inv i _

theorem State.answerResume_inv {s : State} (i : s.RunLaws) : s.answerResume.1.RunLaws := by
  unfold State.answerResume
  split
  · rename_i h
    exact State.accept_inv (State.settle_inv (State.enterReleasing_inv i.marks
      (i.not_stop (by rw [h]; rfl)) (i.hasRecord (by rw [h]; rfl))))
  · exact State.refuse_inv i _

theorem State.startCreep_inv {s : State} (i : s.RunLaws) (h : s.run.state = .parked) (dir : Dir)
    (x : Option Stop) : (s.startCreep dir x).1.RunLaws := by
  unfold State.startCreep
  exact State.accept_inv (State.settle_inv (State.enterPreparing_inv i.output i.marks
    (i.standing (by rw [h]; rfl)) (i.not_stop (by rw [h]; rfl)) _ _ _ _))

theorem State.creepParked_inv {s : State} (i : s.RunLaws) (h : s.run.state = .parked) (dir : Dir) :
    (s.creepParked dir).1.RunLaws := by
  unfold State.creepParked
  split
  · exact State.refuse_inv i _
  · split
    · split
      · exact State.startCreep_inv i h _ _
      · exact State.refuse_inv i _
    · exact State.startCreep_inv i h _ _

theorem State.answerCreep_inv {s : State} (i : s.RunLaws) (pl : List Byte) :
    (s.answerCreep pl).1.RunLaws := by
  unfold State.answerCreep
  split
  · exact State.refuse_inv i _
  · exact State.refuse_inv i _
  · unfold State.creepAllowed
    split
    · split
      · unfold State.creepRefresh
        split
        · refine State.accept_inv ?_
          exact i.timers _ rfl rfl
        · exact State.refuse_inv i _
      · exact State.refuse_inv i _
    · split
      · rename_i h
        exact State.creepParked_inv i h _
      · exact State.refuse_inv i _

theorem State.answerShuttleStart_inv {s : State} (i : s.RunLaws) (pl : List Byte) :
    (s.answerShuttleStart pl).1.RunLaws := by
  unfold State.answerShuttleStart
  split
  · exact i
  · exact i
  · exact State.arbitrating_inv (i.same rfl rfl rfl rfl)

theorem State.answerShuttleEnd_inv {s : State} (i : s.RunLaws) : s.answerShuttleEnd.1.RunLaws := by
  unfold State.answerShuttleEnd
  split
  · exact i.same rfl rfl rfl rfl
  · exact i

/-- Removing entries from the Active Fault Set keeps the laws. -/
theorem State.removeFaults_inv {s : State} (i : s.RunLaws) (keep : FaultEntry → Bool) :
    ({ s with faults := s.faults.filter keep } : State).RunLaws where
  output := i.output
  marks := i.marks
  standing := i.standing
  stop := by
    intro h
    refine i.stop ?_
    obtain ⟨e, he, hc⟩ := List.any_eq_true.mp h
    exact List.any_eq_true.mpr ⟨e, (List.mem_filter.mp he).1, hc⟩
  record := i.record
  zero := i.zero

theorem State.ackKind_inv {s : State} (i : s.RunLaws) (k : FaultKind) : (s.ackKind k).1.RunLaws := by
  unfold State.ackKind
  split
  · exact State.refuse_inv i _
  · split
    · exact State.refuse_inv i _
    · split
      · exact State.refuse_inv i _
      · split
        · exact State.refuse_inv i _
        · exact State.accept_inv (State.settle_inv (State.removeFaults_inv i _))

theorem State.answerAck_inv {s : State} (i : s.RunLaws) (pl : List Byte) :
    (s.answerAck pl).1.RunLaws := by
  unfold State.answerAck
  split
  · unfold State.ackAll; dsimp only
    exact State.settle_inv (State.removeFaults_inv i _)
  · split
    · exact State.ackKind_inv i _
    · exact State.refuse_inv i _

theorem State.modStore_inv {s : State} (i : s.RunLaws) (f : Store → Store) :
    (s.modStore f).RunLaws := i.same rfl rfl rfl rfl

theorem State.editRequests_inv {s : State} (i : s.RunLaws) (pl : List Byte) :
    s.answerOpenEdit.1.RunLaws ∧ (s.answerWriteItem pl).1.RunLaws ∧ (s.answerReadItem pl).1.RunLaws
      ∧ s.answerCommit.1.RunLaws ∧ s.answerAbandon.1.RunLaws := by
  refine ⟨?_, ?_, ?_, ?_, ?_⟩
  · unfold State.answerOpenEdit
    repeat' split
    all_goals first | exact State.refuse_inv i _ | exact State.accept_inv (State.modStore_inv i _)
  · unfold State.answerWriteItem
    repeat' split
    all_goals first | exact State.refuse_inv i _ | (dsimp only; exact State.modStore_inv i _)
  · unfold State.answerReadItem
    repeat' split
    all_goals first | exact State.refuse_inv i _ | exact i
  · unfold State.answerCommit
    repeat' split
    all_goals first | exact State.refuse_inv i _ | exact State.accept_inv (State.modStore_inv i _) | exact i
  · unfold State.answerAbandon
    split
    · exact State.arbitrating_inv (State.modStore_inv i _)
    · exact State.refuse_inv i _

theorem State.constantRequests_inv {s : State} (i : s.RunLaws) (pl : List Byte) :
    (s.answerWriteConstant pl).1.RunLaws ∧ (s.answerReadConstant pl).1.RunLaws
      ∧ s.answerLock.1.RunLaws := by
  refine ⟨?_, ?_, ?_⟩
  · unfold State.answerWriteConstant
    repeat' split
    all_goals first | exact State.refuse_inv i _ | (dsimp only; exact State.modStore_inv i _)
  · unfold State.answerReadConstant
    repeat' split
    all_goals first | exact State.refuse_inv i _ | exact i
  · unfold State.answerLock
    repeat' split
    all_goals first | exact State.refuse_inv i _ | exact State.accept_inv (State.modStore_inv i _) | exact i

/-- A request keeps the laws. -/
theorem State.answer_inv {s : State} (i : s.RunLaws) (p : Party) (t : MsgType) (pl : List Byte) :
    (s.answer p t pl).1.RunLaws := by
  obtain ⟨h1, h2, h3, h4, h5⟩ := State.editRequests_inv i pl
  obtain ⟨h6, h7, h8⟩ := State.constantRequests_inv i pl
  cases t
  all_goals first
    | exact State.answerRun_inv i _
    | exact State.answerCancel_inv i _
    | exact State.answerSuspend_inv i
    | exact State.answerResume_inv i
    | exact State.answerCreep_inv i _
    | exact State.answerShuttleStart_inv i _
    | exact State.answerShuttleEnd_inv i
    | exact State.answerAck_inv i _
    | assumption

theorem State.reply_inv {s : State} (i : s.RunLaws) (p : Party) (type : Byte) (pl : List Byte)
    (r : Reply) : (s.reply p type pl r).RunLaws := i.same rfl rfl rfl rfl

theorem State.takeMessage_inv {s : State} (i : s.RunLaws) (p : Party) (t : MsgType)
    (pl : List Byte) : (s.takeMessage p t pl).RunLaws := by
  unfold State.takeMessage
  split
  · split
    · refine State.settle_inv ?_
      exact i.same rfl rfl rfl rfl
    · refine State.settle_inv ?_
      exact i.same rfl rfl rfl rfl
    · refine State.settle_inv ?_
      exact i.same rfl rfl rfl rfl
    · refine State.settle_inv ?_
      exact i.same rfl rfl rfl rfl
    · exact i
  · exact i

/-- A good frame keeps the laws. -/
theorem State.goodFrame_inv {s : State} (i : s.RunLaws) (p : Party) (type : Byte) (pl : List Byte) :
    (s.goodFrame p type pl).RunLaws := by
  have i1 := State.traffic_inv i p
  unfold State.goodFrame State.takeFrame
  split
  · exact State.reply_inv i1 _ _ _ _
  · split
    · exact State.reply_inv i1 _ _ _ _
    · split
      · exact State.takeMessage_inv i1 _ _ _
      · split
        · exact State.reply_inv i1 _ _ _ _
        · exact State.reply_inv (State.answer_inv i1 _ _ _) _ _ _ _

/-- A character keeps the laws. -/
theorem State.takeChar_inv {s : State} (i : s.RunLaws) (p : Party) (b : Byte) :
    (s.takeChar p b).RunLaws := by
  unfold State.takeChar
  split
  · exact i
  · split
    · exact State.modLink_inv i _ _
    · unfold State.checkedFrame
      split
      · exact State.goodFrame_inv (State.modLink_inv i _ _) _ _ _
      · exact State.modLink_inv i _ _

theorem State.takeChars_inv {s : State} (i : s.RunLaws) (p : Party) (bs : List Byte) :
    (s.takeChars p bs).RunLaws :=
  State.RunLaws.foldl (fun _ b h => State.takeChar_inv h p b) bs s i

/-- The characters of a frame keep the laws. -/
theorem State.hear_inv {s : State} (i : s.RunLaws) (p : Party) (type : Byte) (pl : List Byte) :
    (s.hear p type pl).RunLaws := State.takeChars_inv i p _

/-! ## Store cycles -/

theorem State.takeConstantEnd_inv {s : State} (i : s.RunLaws) : s.takeConstantEnd.RunLaws := by
  unfold State.takeConstantEnd
  split
  · rename_i n v _
    unfold State.completeConstant; simp only
    have i1 : ((s.scaleRebase n v).modStore fun st => st.putConstant n v).RunLaws := by
      refine State.modStore_inv ?_ _
      unfold State.scaleRebase
      repeat' split
      all_goals first | exact i | exact i.same rfl rfl rfl rfl
    refine State.settle_inv ?_
    unfold State.limitLoads
    split
    · exact i1.same rfl rfl rfl rfl
    · exact i1
  · exact i

theorem State.takeLockEnd_inv {s : State} (i : s.RunLaws) : s.takeLockEnd.RunLaws := by
  unfold State.takeLockEnd
  split
  · exact State.settle_inv (State.wantArbitration_inv (State.modStore_inv i _))
  · exact i

theorem State.restartTimers_inv {s : State} (i : s.RunLaws) : s.restartTimers.RunLaws :=
  State.RunLaws.foldl (f := State.restartTimer) (fun _ _ h => h.same rfl rfl rfl rfl) _ _ i

theorem State.takeCommitEnd_inv {s : State} (i : s.RunLaws) : s.takeCommitEnd.RunLaws := by
  unfold State.takeCommitEnd
  split
  · unfold State.completeCommit; simp only
    rename_i o _
    refine State.settle_inv (State.wantArbitration_inv (State.takeOutputs_inv ?_ _))
    have i1 := State.modStore_inv i fun st => st.commit o
    revert i1
    generalize (s.modStore fun st => st.commit o) = t
    intro i1
    have i2 : (t.modReck fun r => r.replaceTable o.settings.cMax).RunLaws :=
      i1.same rfl rfl rfl rfl
    have i3 := State.restartTimers_inv i2
    revert i3
    generalize (t.modReck fun r => r.replaceTable o.settings.cMax).restartTimers = u
    intro i3
    exact i3.same rfl rfl rfl rfl
  · exact i

end Sys2Proof.Machine
end

