-- ==== Sys2Proof/Laws/PerInstr.lean ====
section
/-!
SUPPORT. What holds of every command as syntax, constructor by constructor: the frame that a well-formed
command delivers has a payload that the LEN octet admits (R176).
-/

namespace Sys2Proof.Laws.PayloadFits

open Sys2Proof

/-- The payload of the frame that a command delivers; a command that is no frame has none. -/
def carried : Instr → Option (List Byte)
  | .reset => none
  | .encoderEdge _ _ _ => none
  | .inputLevelChange _ _ => none
  | .sampleTimerExpiry _ => none
  | .standstillTimerExpiry _ => none
  | .filterTimerExpiry _ _ => none
  | .prepareTimerExpiry _ => none
  | .dwellTimerExpiry _ => none
  | .creepHoldLapse _ => none
  | .brakeReleaseDeadlineExpiry _ => none
  | .brakeApplyDeadlineExpiry _ => none
  | .effectivenessCheckExpiry _ => none
  | .quickStopTimerExpiry _ => none
  | .linkTimeout _ _ => none
  | .frameGapTimeout _ _ => none
  | .crcFailedFrame _ _ _ pl _ => some pl
  | .badTypeFrame _ _ _ pl => some pl
  | .transmitComplete _ _ => none
  | .run _ pl => some pl
  | .callLoop _ _ pl => some pl
  | .cancelEntry _ pl => some pl
  | .cancelAll _ pl => some pl
  | .cancelRun _ pl => some pl
  | .suspend _ pl => some pl
  | .resume _ pl => some pl
  | .creep _ pl => some pl
  | .shuttleStart _ pl => some pl
  | .shuttleEnd _ pl => some pl
  | .ackFault _ pl => some pl
  | .ackFaultAll _ pl => some pl
  | .openEdit _ pl => some pl
  | .writeItem _ pl => some pl
  | .readItem _ pl => some pl
  | .commitEdit _ pl => some pl
  | .abandonEdit _ pl => some pl
  | .writeConstant _ pl => some pl
  | .readConstant _ pl => some pl
  | .lockConstants _ pl => some pl
  | .constantWriteComplete _ => none
  | .lockCycleComplete _ => none
  | .commitCycleComplete _ => none
  | .carState _ _ pl => some pl
  | .loopState _ pl => some pl
  | .driveState _ pl => some pl
  | .statusTimerExpiry _ => none
  | .carCommandPeriodExpiry _ _ => none
  | .loopCommandPeriodExpiry _ => none
  | .heldInReset _ => none
  | .frameStartSync _ _ => none
  | .missingStopBit _ _ => none
  | .lenAbove192 _ _ _ => none
  | .notPermittedFrame _ _ _ pl => some pl

/-- A well-formed command's payload has at most 192 bytes. -/
def Statement (i : Instr) : Prop := i.wf = true → ∀ pl, carried i = some pl → pl.length ≤ 192

theorem reset : Statement (.reset) := by
  intro _ _ e
  cases e

theorem encoderEdge (dt : Nat) (ch : Channel) (sense : Sense) :
    Statement (.encoderEdge dt ch sense) := by
  intro _ _ e
  cases e

theorem inputLevelChange (dt : Nat) (seen : List (Fin 32 × Nat)) :
    Statement (.inputLevelChange dt seen) := by
  intro _ _ e
  cases e

theorem sampleTimerExpiry (dt : Nat) : Statement (.sampleTimerExpiry dt) := by
  intro _ _ e
  cases e

theorem standstillTimerExpiry (dt : Nat) : Statement (.standstillTimerExpiry dt) := by
  intro _ _ e
  cases e

theorem filterTimerExpiry (dt : Nat) (slots : List (Fin 14)) :
    Statement (.filterTimerExpiry dt slots) := by
  intro _ _ e
  cases e

theorem prepareTimerExpiry (dt : Nat) : Statement (.prepareTimerExpiry dt) := by
  intro _ _ e
  cases e

theorem dwellTimerExpiry (dt : Nat) : Statement (.dwellTimerExpiry dt) := by
  intro _ _ e
  cases e

theorem creepHoldLapse (dt : Nat) : Statement (.creepHoldLapse dt) := by
  intro _ _ e
  cases e

theorem brakeReleaseDeadlineExpiry (dt : Nat) : Statement (.brakeReleaseDeadlineExpiry dt) := by
  intro _ _ e
  cases e

theorem brakeApplyDeadlineExpiry (dt : Nat) : Statement (.brakeApplyDeadlineExpiry dt) := by
  intro _ _ e
  cases e

theorem effectivenessCheckExpiry (dt : Nat) : Statement (.effectivenessCheckExpiry dt) := by
  intro _ _ e
  cases e

theorem quickStopTimerExpiry (dt : Nat) : Statement (.quickStopTimerExpiry dt) := by
  intro _ _ e
  cases e

theorem linkTimeout (dt : Nat) (p : Party) : Statement (.linkTimeout dt p) := by
  intro _ _ e
  cases e

theorem frameGapTimeout (dt : Nat) (p : Party) : Statement (.frameGapTimeout dt p) := by
  intro _ _ e
  cases e

theorem crcFailedFrame (dt : Nat) (p : Party) (type : Byte) (payload : List Byte) (crc : BitVec 16) :
    Statement (.crcFailedFrame dt p type payload crc) := by
  intro h pl e
  simp_all [carried, Instr.wf, fitsFrame]

theorem badTypeFrame (dt : Nat) (p : Party) (type : Byte) (payload : List Byte) :
    Statement (.badTypeFrame dt p type payload) := by
  intro h pl e
  simp_all [carried, Instr.wf, fitsFrame]

theorem transmitComplete (dt : Nat) (p : Party) : Statement (.transmitComplete dt p) := by
  intro _ _ e
  cases e

theorem run (dt : Nat) (payload : List Byte) : Statement (.run dt payload) := by
  intro h pl e
  simp_all [carried, Instr.wf, fitsFrame]

theorem callLoop (dt : Nat) (p : Party) (payload : List Byte) : Statement (.callLoop dt p payload) := by
  intro h pl e
  simp_all [carried, Instr.wf, fitsFrame]

theorem cancelEntry (dt : Nat) (payload : List Byte) : Statement (.cancelEntry dt payload) := by
  intro h pl e
  simp_all [carried, Instr.wf, fitsFrame]

theorem cancelAll (dt : Nat) (payload : List Byte) : Statement (.cancelAll dt payload) := by
  intro h pl e
  simp_all [carried, Instr.wf, fitsFrame]

theorem cancelRun (dt : Nat) (payload : List Byte) : Statement (.cancelRun dt payload) := by
  intro h pl e
  simp_all [carried, Instr.wf, fitsFrame]

theorem suspend (dt : Nat) (payload : List Byte) : Statement (.suspend dt payload) := by
  intro h pl e
  simp_all [carried, Instr.wf, fitsFrame]

theorem resume (dt : Nat) (payload : List Byte) : Statement (.resume dt payload) := by
  intro h pl e
  simp_all [carried, Instr.wf, fitsFrame]

theorem creep (dt : Nat) (payload : List Byte) : Statement (.creep dt payload) := by
  intro h pl e
  simp_all [carried, Instr.wf, fitsFrame]

theorem shuttleStart (dt : Nat) (payload : List Byte) : Statement (.shuttleStart dt payload) := by
  intro h pl e
  simp_all [carried, Instr.wf, fitsFrame]

theorem shuttleEnd (dt : Nat) (payload : List Byte) : Statement (.shuttleEnd dt payload) := by
  intro h pl e
  simp_all [carried, Instr.wf, fitsFrame]

theorem ackFault (dt : Nat) (payload : List Byte) : Statement (.ackFault dt payload) := by
  intro h pl e
  simp_all [carried, Instr.wf, fitsFrame]

theorem ackFaultAll (dt : Nat) (payload : List Byte) : Statement (.ackFaultAll dt payload) := by
  intro h pl e
  simp_all [carried, Instr.wf, fitsFrame]

theorem openEdit (dt : Nat) (payload : List Byte) : Statement (.openEdit dt payload) := by
  intro h pl e
  simp_all [carried, Instr.wf, fitsFrame]

theorem writeItem (dt : Nat) (payload : List Byte) : Statement (.writeItem dt payload) := by
  intro h pl e
  simp_all [carried, Instr.wf, fitsFrame]

theorem readItem (dt : Nat) (payload : List Byte) : Statement (.readItem dt payload) := by
  intro h pl e
  simp_all [carried, Instr.wf, fitsFrame]

theorem commitEdit (dt : Nat) (payload : List Byte) : Statement (.commitEdit dt payload) := by
  intro h pl e
  simp_all [carried, Instr.wf, fitsFrame]

theorem abandonEdit (dt : Nat) (payload : List Byte) : Statement (.abandonEdit dt payload) := by
  intro h pl e
  simp_all [carried, Instr.wf, fitsFrame]

theorem writeConstant (dt : Nat) (payload : List Byte) : Statement (.writeConstant dt payload) := by
  intro h pl e
  simp_all [carried, Instr.wf, fitsFrame]

theorem readConstant (dt : Nat) (payload : List Byte) : Statement (.readConstant dt payload) := by
  intro h pl e
  simp_all [carried, Instr.wf, fitsFrame]

theorem lockConstants (dt : Nat) (payload : List Byte) : Statement (.lockConstants dt payload) := by
  intro h pl e
  simp_all [carried, Instr.wf, fitsFrame]

theorem constantWriteComplete (dt : Nat) : Statement (.constantWriteComplete dt) := by
  intro _ _ e
  cases e

theorem lockCycleComplete (dt : Nat) : Statement (.lockCycleComplete dt) := by
  intro _ _ e
  cases e

theorem commitCycleComplete (dt : Nat) : Statement (.commitCycleComplete dt) := by
  intro _ _ e
  cases e

theorem carState (dt : Nat) (car : Car) (payload : List Byte) :
    Statement (.carState dt car payload) := by
  intro h pl e
  simp_all [carried, Instr.wf, fitsFrame]

theorem loopState (dt : Nat) (payload : List Byte) : Statement (.loopState dt payload) := by
  intro h pl e
  simp_all [carried, Instr.wf, fitsFrame]

theorem driveState (dt : Nat) (payload : List Byte) : Statement (.driveState dt payload) := by
  intro h pl e
  simp_all [carried, Instr.wf, fitsFrame]

theorem statusTimerExpiry (dt : Nat) : Statement (.statusTimerExpiry dt) := by
  intro _ _ e
  cases e

theorem carCommandPeriodExpiry (dt : Nat) (car : Car) : Statement (.carCommandPeriodExpiry dt car) := by
  intro _ _ e
  cases e

theorem loopCommandPeriodExpiry (dt : Nat) : Statement (.loopCommandPeriodExpiry dt) := by
  intro _ _ e
  cases e

theorem heldInReset (dt : Nat) : Statement (.heldInReset dt) := by
  intro _ _ e
  cases e

theorem frameStartSync (dt : Nat) (p : Party) : Statement (.frameStartSync dt p) := by
  intro _ _ e
  cases e

theorem missingStopBit (dt : Nat) (p : Party) : Statement (.missingStopBit dt p) := by
  intro _ _ e
  cases e

theorem lenAbove192 (dt : Nat) (p : Party) (head : FrameHead) :
    Statement (.lenAbove192 dt p head) := by
  intro _ _ e
  cases e

theorem notPermittedFrame (dt : Nat) (p : Party) (type : Byte) (payload : List Byte) :
    Statement (.notPermittedFrame dt p type payload) := by
  intro h pl e
  simp_all [carried, Instr.wf, fitsFrame]

end Sys2Proof.Laws.PayloadFits
end

