-- ==== Sys2Proof/Laws/Source.lean ====
section
/-!
SUPPORT. The feedback source, the sent reference and supervision while an event settles.  `Steady s t` says
that from s to t no channel, slot or part of the Reckoner has changed, nor the sent reference, v_ref at most
to 0, and v_sup and the overspeed conditions at most as supervision ends (`Watched`).  Every move of the Run Controller and every taking of reports is steady; what a round does beyond that
is `detect`.
-/

namespace Sys2Proof.Machine

-- One theorem at a time: side by side they ask for more threads than check.sh's memory holds.
set_option Elab.async false

/-- v_sup as it was or 0, either overspeed condition as it was or false, neither newly taken by the Fault
Handler but as it stands, and the law of supervision kept. -/
structure Watched (s t : State) : Prop where
  vSup : t.prof.vSup = s.prof.vSup ∨ t.prof.vSup = 0
  curve : t.prof.curve = s.prof.curve ∨ t.prof.curve = false
  limit : t.prof.limit = s.prof.limit ∨ t.prof.limit = false
  curveTaken : .overspeedCurve ∈ t.conds → .overspeedCurve ∈ s.conds ∨ s.prof.curve = true
  limitTaken : .overspeedLimit ∈ t.conds → .overspeedLimit ∈ s.conds ∨ s.prof.limit = true
  law : s.SupervisionLaw → t.SupervisionLaw

theorem Watched.same {s t : State} (hr : t.run.state = s.run.state := by rfl)
    (hv : t.prof.vSup = s.prof.vSup := by rfl) (hc : t.prof.curve = s.prof.curve := by rfl)
    (hl : t.prof.limit = s.prof.limit := by rfl) (hd : t.conds = s.conds := by rfl) : Watched s t where
  vSup := .inl hv
  curve := .inl hc
  limit := .inl hl
  curveTaken h := .inl (hd ▸ h)
  limitTaken h := .inl (hd ▸ h)
  law h hn := by rw [hr] at hn; rw [hv, hc, hl]; exact h hn

theorem Watched.refl (s : State) : Watched s s := Watched.same

theorem Watched.trans {s t u : State} (a : Watched s t) (b : Watched t u) : Watched s u where
  vSup := b.vSup.elim (fun h => h ▸ a.vSup) .inr
  curve := b.curve.elim (fun h => h ▸ a.curve) .inr
  limit := b.limit.elim (fun h => h ▸ a.limit) .inr
  curveTaken h := (b.curveTaken h).elim a.curveTaken fun g => .inr (by
    rcases a.curve with e | e
    · rw [← e]; exact g
    · rw [e] at g; cases g)
  limitTaken h := (b.limitTaken h).elim a.limitTaken fun g => .inr (by
    rcases a.limit with e | e
    · rw [← e]; exact g
    · rw [e] at g; cases g)
  law h := b.law (a.law h)

/-- Channels, slots, Reckoner, source and sent reference as they were, v_ref as it was or 0. -/
structure Steady (s t : State) : Prop where
  chan : t.chan = s.chan
  slots : t.slots = s.slots
  reck : t.reck = s.reck
  source : t.prof.source = s.prof.source
  sent : t.brk.refEnable = s.brk.refEnable ∧ t.brk.refSpeed = s.brk.refSpeed
  vRef : t.prof.vRef = s.prof.vRef ∨ t.prof.vRef = 0
  watched : Watched s t

theorem Steady.same {s t : State} (hc : t.chan = s.chan) (hs : t.slots = s.slots)
    (hr : t.reck = s.reck) (hp : t.prof.source = s.prof.source)
    (hb : t.brk.refEnable = s.brk.refEnable ∧ t.brk.refSpeed = s.brk.refSpeed)
    (hv : t.prof.vRef = s.prof.vRef)
    (hw : Watched s t := by exact Watched.same) : Steady s t :=
  ⟨hc, hs, hr, hp, hb, .inl hv, hw⟩

theorem Steady.refl (s : State) : Steady s s := Steady.same rfl rfl rfl rfl ⟨rfl, rfl⟩ rfl

theorem Steady.trans {s t u : State} (a : Steady s t) (b : Steady t u) : Steady s u where
  chan := b.chan.trans a.chan
  slots := b.slots.trans a.slots
  reck := b.reck.trans a.reck
  source := b.source.trans a.source
  sent := ⟨b.sent.1.trans a.sent.1, b.sent.2.trans a.sent.2⟩
  vRef := by
    rcases b.vRef with h | h
    · rw [h]; exact a.vRef
    · exact .inr h
  watched := a.watched.trans b.watched

/-! ## The named updates -/

theorem State.modRun_steady (s : State) (f : RunControl → RunControl)
    (h : (f s.run).state = s.run.state := by rfl) : Steady s (s.modRun f) :=
  Steady.same rfl rfl rfl rfl ⟨rfl, rfl⟩ rfl (Watched.same h)

theorem State.modBrk_steady (s : State) (f : BrakeUnit → BrakeUnit)
    (h : (f s.brk).refEnable = s.brk.refEnable ∧ (f s.brk).refSpeed = s.brk.refSpeed := by
      exact ⟨rfl, rfl⟩) : Steady s (s.modBrk f) := Steady.same rfl rfl rfl rfl h rfl

theorem State.formTarget_steady (s : State) (x : Stop) : Steady s (s.formTarget x) :=
  Steady.same rfl rfl rfl rfl ⟨rfl, rfl⟩ rfl

theorem State.createContext_steady (s : State) (r : RunRecord) : Steady s (s.createContext r) :=
  Steady.same rfl rfl rfl rfl ⟨rfl, rfl⟩ rfl

/-! ## Brakes and drive -/

theorem State.startCheck_steady (s : State) (b : BrakeSet) : Steady s (s.startCheck b) := by
  unfold State.startCheck; simp only; split
  · exact s.modBrk_steady _
  · exact Steady.refl s

theorem State.apply_steady (s : State) (b : BrakeSet) : Steady s (s.apply b) :=
  (s.modBrk_steady _).trans (State.startCheck_steady _ _)

theorem State.release_steady (s : State) : Steady s s.release := s.modBrk_steady _

theorem State.enableDrive_steady (s : State) : Steady s s.enableDrive := s.modBrk_steady _

theorem State.disableDrive_steady (s : State) : Steady s s.disableDrive :=
  (s.apply_steady _).trans (State.modBrk_steady _ _)

theorem State.emergencyDemand_steady (s : State) : Steady s s.emergencyDemand :=
  (s.apply_steady _).trans (State.modBrk_steady _ _)

theorem State.classApply_steady (s : State) : Steady s s.classApply :=
  (s.apply_steady _).trans (State.modBrk_steady _ _)

theorem State.brakeFeedback_steady (s : State) (old : List Slot) :
    Steady s (s.brakeFeedback old) := by
  unfold State.brakeFeedback; simp only; split <;> split
  · exact (s.modBrk_steady _).trans ((State.apply_steady _ _).trans (State.apply_steady _ _))
  · exact (s.modBrk_steady _).trans (State.apply_steady _ _)
  · exact (s.modBrk_steady _).trans (State.apply_steady _ _)
  · exact s.modBrk_steady _

/-! ## Run states -/

theorem State.enterState_steady (s : State) (st : RunState) (f : Option Flavour)
    (c : Option StopClass) : Steady s (s.enterState st f c) where
  chan := rfl
  slots := rfl
  reck := rfl
  source := rfl
  sent := ⟨rfl, rfl⟩
  vRef := by
    show (if _ then 0 else s.prof.vRef) = s.prof.vRef ∨ (if _ then 0 else s.prof.vRef) = 0
    split
    · exact .inr rfl
    · exact .inl rfl
  watched :=
    { vSup := by
        show (if _ then s.prof.vSup else 0) = s.prof.vSup ∨ (if _ then s.prof.vSup else 0) = 0
        split
        · exact .inl rfl
        · exact .inr rfl
      curve := by
        show (s.prof.curve && _) = s.prof.curve ∨ (s.prof.curve && _) = false
        cases s.prof.curve <;> cases st.speedSupervised <;> simp
      limit := by
        show (s.prof.limit && _) = s.prof.limit ∨ (s.prof.limit && _) = false
        cases s.prof.limit <;> cases st.speedSupervised <;> simp
      curveTaken := .inl
      limitTaken := .inl
      law := fun _ (hn : st.speedSupervised = false) => by
        simp [State.enterState, Profile.enter, hn] }

theorem State.clearCalls_steady (s : State) : Steady s s.clearCalls :=
  Steady.same rfl rfl rfl rfl ⟨rfl, rfl⟩ rfl

theorem State.dropRun_steady (s : State) : Steady s s.dropRun := s.modRun_steady _

theorem State.startClass_steady (s : State) (c : StopClass) : Steady s (s.startClass c) := by
  unfold State.startClass; split
  · exact s.modBrk_steady _
  · exact s.modBrk_steady _
  · exact Steady.refl s

theorem State.enterFaultStopping_steady (s : State) (c : StopClass) :
    Steady s (s.enterFaultStopping c) :=
  ((s.clearCalls_steady.trans (State.dropRun_steady _)).trans
    (State.enterState_steady _ _ _ _)).trans (State.startClass_steady _ _)

theorem State.enterFaultHeld_steady (s : State) : Steady s s.enterFaultHeld :=
  (s.clearCalls_steady.trans (State.dropRun_steady _)).trans (State.enterState_steady _ _ _ _)

theorem State.raiseClass_steady (s : State) (c : StopClass) : Steady s (s.raiseClass c) :=
  (s.enterState_steady _ _ _).trans (State.startClass_steady _ _)

theorem State.reactToFault_steady (s : State) (c : StopClass) : Steady s (s.reactToFault c) := by
  unfold State.reactToFault; split
  all_goals first
    | exact s.enterFaultHeld_steady
    | exact s.enterFaultStopping_steady _
    | exact Steady.refl s
    | (split
       · exact s.raiseClass_steady _
       · exact Steady.refl s)

/-! ## Faults -/

theorem State.latch_steady (s : State) (r : Report) : Steady s (s.latch r) := by
  unfold State.latch
  split <;> exact Steady.same rfl rfl rfl rfl ⟨rfl, rfl⟩ rfl

theorem State.takeFalls_steady (s : State) : Steady s s.takeFalls :=
  Steady.same rfl rfl rfl rfl ⟨rfl, rfl⟩ rfl
    { vSup := .inl rfl
      curve := .inl rfl
      limit := .inl rfl
      curveTaken := fun h => .inr (List.mem_filter.1 h).2
      limitTaken := fun h => .inr (List.mem_filter.1 h).2
      law := id }

theorem Steady.foldl {α : Type} (f : State → α → State) (h : ∀ s a, Steady s (f s a))
    (l : List α) (s : State) : Steady s (l.foldl f s) := by
  induction l generalizing s with
  | nil => exact Steady.refl s
  | cons a l ih => exact (h s a).trans (ih _)

theorem State.takeReports_steady (s : State) (rs : List Report) : Steady s (s.takeReports rs) := by
  have h1 := Steady.foldl State.latch State.latch_steady rs s
  unfold State.takeReports; simp only; split <;> split
  · exact (h1.trans (State.emergencyDemand_steady _)).trans (State.reactToFault_steady _ _)
  · exact h1.trans (State.reactToFault_steady _ _)
  · exact h1.trans (State.emergencyDemand_steady _)
  · exact h1

theorem State.report_steady (s : State) (r : Report) : Steady s (s.report r) :=
  s.takeReports_steady [r]

theorem State.refresh_steady (s : State) : Steady s s.refresh :=
  s.takeFalls_steady.trans (State.takeReports_steady _ _)

theorem State.takeOutputs_steady (s : State) (old : List Slot) : Steady s (s.takeOutputs old) :=
  ((show Steady s (s.modProf fun p => { p with wind := s.out 9 }) from
    Steady.same rfl rfl rfl rfl ⟨rfl, rfl⟩ rfl).trans (State.brakeFeedback_steady _ _)).trans
    (State.takeReports_steady _ _)

/-! ## The Run Controller -/

theorem State.clearMarks_steady (s : State) : Steady s s.clearMarks :=
  Steady.same rfl rfl rfl rfl ⟨rfl, rfl⟩ rfl

theorem State.serveDwell_steady (s : State) (x : Stop) (ids : List Ident) (err : PerCar Int) :
    Steady s (s.serveDwell x ids err) := by
  cases x <;> exact Steady.same rfl rfl rfl rfl ⟨rfl, rfl⟩ rfl

theorem State.enterPreparing_steady (s : State) (m : Mode) (d : Dir) (x : Option Stop)
    (ids : List Ident) : Steady s (s.enterPreparing m d x ids) := by
  have h := (s.clearMarks_steady.trans (State.enterState_steady s.clearMarks .preparing none none))
  unfold State.enterPreparing; simp only; split
  · exact (h.trans (State.modRun_steady _ _)).trans (State.formTarget_steady _ _)
  · exact h.trans (State.modRun_steady _ _)

theorem State.enterReleasing_steady (s : State) : Steady s s.enterReleasing :=
  ((s.enterState_steady _ _ _).trans (State.enableDrive_steady _)).trans
    (State.release_steady _)

theorem State.exitPreparing_steady (s : State) (r : RunRecord) : Steady s (s.exitPreparing r) := by
  unfold State.exitPreparing; simp only; split
  · exact (((s.modRun_steady _).trans (State.formTarget_steady _ _)).trans
      (State.createContext_steady _ _)).trans (State.enterReleasing_steady _)
  · exact ((s.modRun_steady _).trans (State.createContext_steady _ _)).trans
      (State.enterReleasing_steady _)

theorem State.enterRunning_steady (s : State) : Steady s s.enterRunning := by
  unfold State.enterRunning
  exact (s.enterState_steady _ _ _).trans (State.modRun_steady _ _)

theorem State.enterSettling_steady (s : State) (f : Flavour) : Steady s (s.enterSettling f) :=
  (s.enterState_steady _ _ _).trans (State.modRun_steady _ _)

theorem State.testDistance_steady (s : State) : Steady s s.testDistance := by
  unfold State.testDistance; repeat' split
  all_goals first
    | exact Steady.refl s
    | exact s.enterSettling_steady _
    | exact s.enterState_steady _ _ _

theorem State.endSuspendRamp_steady (s : State) : Steady s s.endSuspendRamp := by
  unfold State.endSuspendRamp; split
  · exact s.enterSettling_steady _
  · exact Steady.refl s

theorem State.sampleStandstill_steady (s : State) : Steady s s.sampleStandstill := by
  unfold State.sampleStandstill; repeat' split
  all_goals exact s.modRun_steady _

theorem State.expireStandstill_steady (s : State) : Steady s s.expireStandstill := by
  unfold State.expireStandstill; split <;> exact s.modRun_steady _

theorem State.enterDwell_steady (s : State) (x : Stop) (ids : List Ident) :
    Steady s (s.enterDwell x ids) := by
  have h1 := s.serveDwell_steady x ids (s.stopErrors x)
  have h2 (u : State) (e : PerCar Int) (d : Option Nat) : Steady u ((u.modRun fun r =>
      { r with dwellStop := some x, dwellErr := e, dwellDue := d, record := none }).enterState
        .dwell) := (u.modRun_steady _).trans (State.enterState_steady _ _ _ _)
  unfold State.enterDwell; simp only; split
  · exact (h1.trans (h2 _ _ _)).trans (State.report_steady _ _)
  · exact h1.trans (h2 _ _ _)

theorem State.enterParked_steady (s : State) : Steady s s.enterParked :=
  (s.enterState_steady _ _ _).trans (State.modRun_steady _ _)

theorem State.leaveFaultHeld_steady (s : State) : Steady s s.leaveFaultHeld :=
  (s.modBrk_steady _).trans (State.enterParked_steady _)

theorem State.takeChoice_steady (s : State) (c : Choice) : Steady s (s.takeChoice c) := by
  unfold State.takeChoice; split
  · exact Steady.refl s
  · exact s.enterDwell_steady _ _
  · exact s.enterPreparing_steady _ _ _ _

theorem State.arbitrate_steady (s : State) : Steady s s.arbitrate := by
  unfold State.arbitrate; simp only; split
  · exact (s.modRun_steady _).trans (State.takeChoice_steady _ _)
  · exact s.modRun_steady _

theorem State.endSettling_steady (s : State) : Steady s s.endSettling := by
  have h := s.disableDrive_steady
  unfold State.endSettling; simp only; repeat' split
  all_goals first
    | exact h.trans (State.enterState_steady _ _ _ _)
    | exact h.trans (State.enterDwell_steady _ _ _)
    | exact h.trans (State.enterParked_steady _)

theorem State.runSettling_steady (s : State) : Steady s s.runSettling := by
  unfold State.runSettling; simp only; split <;> split
  · exact (s.apply_steady _).trans (State.endSettling_steady _)
  · exact s.apply_steady _
  · exact s.endSettling_steady
  · exact Steady.refl s

theorem State.runFaultStopping_steady (s : State) : Steady s s.runFaultStopping := by
  unfold State.runFaultStopping; simp only
  have h1 : Steady s (if s.classApplies then s.classApply else s) := by
    split
    · exact s.classApply_steady
    · exact Steady.refl s
  generalize (if s.classApplies then s.classApply else s) = s1 at h1
  have h2 : Steady s (if s1.brakesDone ∧ s1.brk.enable = true then s1.disableDrive else s1) := by
    split
    · exact h1.trans s1.disableDrive_steady
    · exact h1
  generalize (if s1.brakesDone ∧ s1.brk.enable = true then s1.disableDrive else s1) = s2 at h2
  split
  · exact h2.trans (State.enterState_steady _ _ _ _)
  · exact h2

theorem State.runStep_steady (s : State) : Steady s s.runStep := by
  unfold State.runStep; repeat' split
  all_goals first
    | exact Steady.refl s
    | exact s.arbitrate_steady
    | exact s.exitPreparing_steady _
    | exact s.enterRunning_steady
    | exact s.runSettling_steady
    | exact s.enterParked_steady
    | exact s.runFaultStopping_steady
    | exact s.leaveFaultHeld_steady


/-! ## The sent reference -/

/-- The sent reference as it was, v_ref as it was or 0, supervision at most at its end. -/
structure Sent (s t : State) : Prop where
  sent : t.brk.refEnable = s.brk.refEnable ∧ t.brk.refSpeed = s.brk.refSpeed
  vRef : t.prof.vRef = s.prof.vRef ∨ t.prof.vRef = 0
  watched : Watched s t

theorem Steady.toSent {s t : State} (h : Steady s t) : Sent s t := ⟨h.sent, h.vRef, h.watched⟩

theorem Sent.trans {s t u : State} (a : Sent s t) (b : Sent t u) : Sent s u where
  sent := ⟨b.sent.1.trans a.sent.1, b.sent.2.trans a.sent.2⟩
  vRef := by
    rcases b.vRef with h | h
    · rw [h]; exact a.vRef
    · exact .inr h
  watched := a.watched.trans b.watched

theorem Sent.same {s t : State} (hb : t.brk = s.brk) (hv : t.prof.vRef = s.prof.vRef)
    (hw : Watched s t := by exact Watched.same) : Sent s t :=
  ⟨by rw [hb]; exact ⟨rfl, rfl⟩, .inl hv, hw⟩

theorem State.reference_sent (s : State) (x : Int) (zones : PerCar (List Zone)) :
    Sent s (s.reference x zones) := by
  unfold State.reference State.takeCreepTarget
  simp only
  repeat' split
  all_goals exact Sent.same rfl rfl

theorem State.detect_sent (s : State) : Sent s s.detect := by
  have h1 : Sent s s.returnToMain := by
    unfold State.returnToMain; split
    · exact Sent.same rfl rfl
    · exact (Steady.refl s).toSent
  have h2 (u : State) : Sent u u.bankStep :=
    (show Sent u u.takeSources from Sent.same rfl rfl).trans (State.takeOutputs_steady _ _).toSent
  have h3 (u : State) : Sent u u.failover := by
    unfold State.failover; split
    · exact (show Sent u (((u.modChan .alt fun c => c.rebase (u.chanPos .main)).setSource
        .alt).evalDisagree) from Sent.same rfl rfl).trans (State.takeReports_steady _ _).toSent
    · exact (Steady.refl u).toSent
  have h4 (u : State) : Sent u u.terminalReference := by
    unfold State.terminalReference; split
    · exact u.reference_sent _ _
    · exact (Steady.refl u).toSent
  exact ((((h1.trans (h2 _)).trans (h3 _)).trans (h4 _))).trans (State.refresh_steady _).toSent

/-- An event that settles leaves the DRIVE_REFERENCE sent, and v_ref as it was or 0. -/
theorem State.settle_sent (s : State) : Sent s s.settle := by
  have key (n : Nat) (u : State) : Sent u (State.rounds n u) := by
    induction n generalizing u with
    | zero => exact (Steady.refl u).toSent
    | succ n ih => exact (u.detect_sent.trans (State.runStep_steady _).toSent).trans (ih _)
  exact key 8 s

/-! ## Slots -/

theorem State.takeSources_getElem? (s : State) (i : Nat) : s.takeSources.slots[i]? =
    (s.slots[i]?).map fun sl =>
      let cfg := s.store.active.filter i
      let level := s.sourceLevel cfg.source
      if level = sl.level then sl else sl.take cfg s.time level := by
  simp only [State.takeSources, List.getElem?_map, List.getElem?_zipIdx, Option.map_map,
    Function.comp_def, Nat.zero_add]

@[simp] theorem Slot.take_level (cfg : FilterConfig) (now : Nat) (level : Bool) (sl : Slot) :
    (sl.take cfg now level).level = level := by
  simp only [Slot.take]
  repeat' split
  all_goals rfl

/-- No slot has a source level to take exactly when each has taken its own (R46). -/
theorem State.takeSources_same {s : State} : s.takeSources = s ↔
    ∀ i sl, s.slots[i]? = some sl → s.sourceLevel (s.store.active.filter i).source = sl.level := by
  constructor
  · intro h i sl hi
    have e := s.takeSources_getElem? i
    rw [h, hi] at e
    simp only [Option.map_some, Option.some.injEq] at e
    by_contra hne
    rw [if_neg hne] at e
    have := congrArg Slot.level e
    rw [Slot.take_level] at this
    exact hne this.symm
  · intro h
    have e : s.takeSources.slots = s.slots := by
      apply List.ext_getElem?
      intro i
      rw [State.takeSources_getElem?]
      cases hi : s.slots[i]? with
      | none => rfl
      | some sl => simp only [Option.map_some, h i sl hi, if_true]
    show { s with slots := s.takeSources.slots } = s
    rw [e]

/-- The level of a source other than DISAGREE rests on the inputs and the stall conditions (R45). -/
theorem State.sourceLevel_same {s t : State} {x : SlotSource} (hi : t.inputs = s.inputs)
    (hm : t.reck.mainStall = s.reck.mainStall) (ha : t.reck.altStall = s.reck.altStall)
    (hd : x ≠ .disagree ∨ t.reck.disagree = s.reck.disagree) : t.sourceLevel x = s.sourceLevel x := by
  cases x with
  | disagree => exact hd.resolve_left fun h => h rfl
  | _ => simp [State.sourceLevel, State.input, hi, hm, ha]

theorem State.out_same {s t : State} {i : Nat} (h : t.slots[i]? = s.slots[i]?) : t.out i = s.out i := by
  simp only [State.out, slotOut, List.getD_eq_getElem?_getD, h]

/-! ## The source through the rounds of an event -/

theorem State.fault_isNone {s : State} {k : FaultKind} :
    (s.fault k).isNone = true ↔ ∀ e ∈ s.faults, e.kind ≠ k := by
  simp [State.fault, List.find?_eq_none]

theorem State.bankStep_keeps (s : State) : s.bankStep.chan = s.chan ∧ s.bankStep.reck = s.reck
    ∧ s.bankStep.prof.source = s.prof.source ∧ s.bankStep.slots = s.takeSources.slots := by
  have h := State.takeOutputs_steady s.takeSources s.slots
  exact ⟨h.chan, h.reck, h.source, h.slots⟩

theorem State.terminalReference_same {s : State} (h : s.reck.referenced = true) :
    s.terminalReference = s := by simp [State.terminalReference, h]

/-- A round of a part that is REFERENCED and neither returns nor fails over moves its slots at most. -/
theorem State.round_source {s : State} (hr : s.reck.referenced = true) (h1 : s.returnToMain = s)
    (h2 : s.bankStep.failover = s.bankStep) : s.round.chan = s.chan ∧ s.round.reck = s.reck
    ∧ s.round.prof.source = s.prof.source ∧ s.round.slots = s.takeSources.slots := by
  obtain ⟨b1, b2, b3, b4⟩ := s.bankStep_keeps
  have h3 : s.bankStep.terminalReference = s.bankStep :=
    State.terminalReference_same (by rw [b2]; exact hr)
  have e : s.detect = s.bankStep.refresh := by rw [State.detect, h1, h2, h3]
  have k := (State.refresh_steady s.bankStep).trans (State.runStep_steady _)
  rw [State.round, e]
  exact ⟨k.chan.trans b1, k.reck.trans b2, k.source.trans b3, k.slots.trans b4⟩

/-- While the FEEDBACK_FAILOVER entry is there the source stays ALT (R30). -/
theorem State.rounds_alt (n : Nat) {s : State} (hr : s.reck.referenced = true)
    (hs : s.reck.source = .alt) (hf : ∃ e ∈ s.faults, e.kind = .feedbackFailover) :
    (State.rounds n s).chan = s.chan ∧ (State.rounds n s).reck = s.reck
      ∧ (State.rounds n s).prof.source = s.prof.source := by
  induction n generalizing s with
  | zero => exact ⟨rfl, rfl, rfl⟩
  | succ n ih =>
    obtain ⟨e, he, hk⟩ := hf
    have h1 : s.returnToMain = s := by
      rw [State.returnToMain, if_neg]
      rintro ⟨_, _, h, _⟩
      exact State.fault_isNone.1 h e he hk
    have h2 : s.bankStep.failover = s.bankStep := by
      rw [State.failover, if_neg]
      rintro ⟨h, _⟩
      rw [s.bankStep_keeps.2.1, hs] at h
      exact absurd h (by decide)
    obtain ⟨r1, r2, r3, _⟩ := State.round_source hr h1 h2
    obtain ⟨e', he', f⟩ := s.round_settles.old e he
    obtain ⟨i1, i2, i3⟩ := ih (s := s.round) (by rw [r2]; exact hr) (by rw [r2]; exact hs)
      ⟨e', he', f.kind.trans hk⟩
    exact ⟨i1.trans r1, i2.trans r2, i3.trans r3⟩

/-- With both stalled outputs true nothing moves the source from MAIN (R28). -/
theorem State.rounds_stalled (n : Nat) {s : State} (hr : s.reck.referenced = true)
    (hs : s.reck.source = .main) (h1 : s.out 1 = true) (ht : s.takeSources = s) :
    (State.rounds n s).chan = s.chan ∧ (State.rounds n s).reck = s.reck
      ∧ (State.rounds n s).prof.source = s.prof.source := by
  induction n generalizing s with
  | zero => exact ⟨rfl, rfl, rfl⟩
  | succ n ih =>
    have g1 : s.returnToMain = s := by simp [State.returnToMain, hs]
    have g2 : s.bankStep.failover = s.bankStep := by
      rw [State.failover, if_neg]
      rintro ⟨_, _, h⟩
      rw [State.out_same (s := s) (by rw [s.bankStep_keeps.2.2.2, ht]), h1] at h
      exact absurd h (by decide)
    obtain ⟨r1, r2, r3, r4⟩ := State.round_source hr g1 g2
    rw [ht] at r4
    have o := s.round_settles.outer
    have hl : s.round.takeSources = s.round := State.takeSources_same.2 fun i sl hi => by
      rw [r4] at hi
      rw [o.store, State.sourceLevel_same o.inputs (by rw [r2]) (by rw [r2]) (.inr (by rw [r2]))]
      exact State.takeSources_same.1 ht i sl hi
    obtain ⟨i1, i2, i3⟩ := ih (s := s.round) (by rw [r2]; exact hr) (by rw [r2]; exact hs)
      (by rw [State.out_same (s := s) (by rw [r4]), h1]) hl
    exact ⟨i1.trans r1, i2.trans r2, i3.trans r3⟩

/-- With MAIN_STALLED false, and no level for slot 0 to take, the source stays MAIN (R28). -/
theorem State.rounds_main (n : Nat) {s : State} (hr : s.reck.referenced = true)
    (hs : s.reck.source = .main) (h0 : s.out 0 = false)
    (hd : (s.store.active.filter 0).source ≠ .disagree)
    (ht : s.takeSources.slots[0]? = s.slots[0]?) :
    (State.rounds n s).chan = s.chan ∧ (State.rounds n s).reck = s.reck
      ∧ (State.rounds n s).prof.source = s.prof.source := by
  induction n generalizing s with
  | zero => exact ⟨rfl, rfl, rfl⟩
  | succ n ih =>
    have g1 : s.returnToMain = s := by simp [State.returnToMain, hs]
    have g2 : s.bankStep.failover = s.bankStep := by
      rw [State.failover, if_neg]
      rintro ⟨_, h, _⟩
      rw [State.out_same (s := s) (by rw [s.bankStep_keeps.2.2.2, ht]), h0] at h
      exact absurd h (by decide)
    obtain ⟨r1, r2, r3, r4⟩ := State.round_source hr g1 g2
    have e0 : s.round.slots[0]? = s.slots[0]? := by rw [r4, ht]
    have o := s.round_settles.outer
    have hl : s.round.takeSources.slots[0]? = s.round.slots[0]? := by
      have e := s.takeSources_getElem? 0
      rw [ht] at e
      have hx : s.round.sourceLevel (s.store.active.filter 0).source
          = s.sourceLevel (s.store.active.filter 0).source :=
        State.sourceLevel_same o.inputs (by rw [r2]) (by rw [r2]) (.inl hd)
      rw [State.takeSources_getElem?, e0, o.store, o.time]
      simp only [hx]
      exact e.symm
    obtain ⟨i1, i2, i3⟩ := ih (s := s.round) (by rw [r2]; exact hr) (by rw [r2]; exact hs)
      (by rw [State.out_same (s := s) e0, h0]) (by rw [o.store]; exact hd) hl
    exact ⟨i1.trans r1, i2.trans r2, i3.trans r3⟩

/-! ## The conditions that the Fault Handler has taken -/

theorem State.startCheck_conds (s : State) (b : BrakeSet) : (s.startCheck b).conds = s.conds := by
  unfold State.startCheck; simp only; split <;> rfl

theorem State.apply_conds (s : State) (b : BrakeSet) : (s.apply b).conds = s.conds :=
  State.startCheck_conds _ _

theorem State.reactToFault_conds (s : State) (c : StopClass) : (s.reactToFault c).conds = s.conds := by
  unfold State.reactToFault State.enterFaultStopping State.raiseClass State.startClass
  repeat' split
  all_goals rfl

/-- Reports change no condition that the Fault Handler has taken. -/
theorem State.takeReports_conds (s : State) (rs : List Report) : (s.takeReports rs).conds = s.conds := by
  have hl (rs : List Report) (u : State) : (rs.foldl State.latch u).conds = u.conds := by
    induction rs generalizing u with
    | nil => rfl
    | cons a rs ih => rw [List.foldl_cons, ih]; unfold State.latch; split <;> rfl
  have he (u : State) : u.emergencyDemand.conds = u.conds := u.apply_conds _
  unfold State.takeReports; simp only
  split <;> split <;> simp only [State.reactToFault_conds, he, hl]

/-- The taking of outputs changes no condition that the Fault Handler has taken. -/
theorem State.takeOutputs_conds (s : State) (old : List Slot) :
    (s.takeOutputs old).conds = s.conds := by
  have hb (u : State) : (u.brakeFeedback old).conds = u.conds := by
    unfold State.brakeFeedback; simp only
    split <;> split <;> simp only [State.apply_conds, State.modBrk]
  unfold State.takeOutputs
  exact (State.takeReports_conds _ _).trans (hb _)

/-! ## Failover, return and the conditions -/

theorem State.chanPos_same {s t : State} (hc : t.chan = s.chan) (ho : t.store = s.store)
    (ch : Channel) : t.chanPos ch = s.chanPos ch := by
  simp only [State.chanPos, State.scale, State.const, hc, ho]

@[simp] theorem ChannelRecord.rebase_position (c : ChannelRecord) (x scale : Int) :
    (c.rebase x).position scale = x := by
  simp [ChannelRecord.rebase, ChannelRecord.position, floorDiv]

/-- A failover (R28): ALT takes up s from MAIN, and FEEDBACK_FAILOVER is in the Active Fault Set. -/
theorem State.failover_fires {s : State} (hs : s.reck.source = .main) (h0 : s.out 0 = true)
    (h1 : s.out 1 = false) : s.failover.reck.source = .alt ∧ s.failover.prof.source = .alt
      ∧ s.failover.reck.disagree = false ∧ s.failover.reck.referenced = s.reck.referenced
      ∧ s.failover.chanPos .alt = s.chanPos .main ∧ s.failover.chanPos .main = s.chanPos .main
      ∧ ∃ e ∈ s.failover.faults, e.kind = .feedbackFailover := by
  rw [State.failover, if_pos ⟨hs, h0, h1⟩]
  generalize hx : (((s.modChan .alt fun c => c.rebase (s.chanPos .main)).setSource
    .alt).evalDisagree) = x
  have hr : x.reck = { s.reck with source := .alt, disagree := false } := by subst hx; rfl
  have hc : x.chan = s.chan.set .alt ((s.chan.get .alt).rebase (s.chanPos .main)) := by subst hx; rfl
  have ho : x.store = s.store := by subst hx; rfl
  have hp : x.prof.source = .alt := by subst hx; rfl
  have st : Steady x (x.report { kind := .feedbackFailover }) := State.takeReports_steady x _
  have so := (x.report_settles { kind := .feedbackFailover }).outer.store
  obtain ⟨e, he, hk, _⟩ := x.report_has { kind := .feedbackFailover }
  have hsc : x.scale = s.scale := by funext ch; simp only [State.scale, State.const, ho]
  have e1 : x.chanPos .alt = s.chanPos .main := by
    simp only [State.chanPos, hc, PerChannel.get, PerChannel.set, ChannelRecord.rebase_position]
  have e2 : x.chanPos .main = s.chanPos .main := by
    simp only [State.chanPos, hc, PerChannel.get, PerChannel.set, hsc]
  exact ⟨by rw [st.reck, hr], st.source.trans hp, by rw [st.reck, hr], by rw [st.reck, hr],
    (State.chanPos_same st.chan so _).trans e1, (State.chanPos_same st.chan so _).trans e2, e, he, hk⟩

/-- A return of the source (R30): MAIN takes up s from ALT, and DISAGREE is evaluated again. -/
theorem State.returnToMain_fires {s : State} (hs : s.reck.source = .alt)
    (hp : s.run.state = .parked) (hf : ∀ e ∈ s.faults, e.kind ≠ .feedbackFailover)
    (h0 : s.out 0 = false) : s.returnToMain.reck.source = .main ∧ s.returnToMain.prof.source = .main
      ∧ s.returnToMain.reck.referenced = s.reck.referenced ∧ s.returnToMain.slots = s.slots
      ∧ s.returnToMain.chanPos .main = s.chanPos .alt ∧ s.returnToMain.chanPos .alt = s.chanPos .alt
      ∧ s.returnToMain.reck.disagree
        = decide (mag (s.returnToMain.chanPos .main - s.returnToMain.chanPos .alt)
          > s.settings.disagree)
      ∧ s.returnToMain.reck.mainStall = s.reck.mainStall
      ∧ s.returnToMain.reck.altStall = s.reck.altStall := by
  rw [State.returnToMain, if_pos ⟨hs, hp, State.fault_isNone.2 hf, h0⟩]
  refine ⟨rfl, rfl, rfl, rfl, ?_, rfl, rfl, rfl, rfl⟩
  show ((s.chan.get .alt |> fun _ => (s.chan.main.rebase (s.chanPos .alt))).position _) = _
  exact ChannelRecord.rebase_position _ _ _

/-- A round in which the two conditions of a failover come to hold (R28). -/
theorem State.round_failover {s : State} (hs : s.reck.source = .main) (h0 : s.out 0 = true)
    (h1 : s.out 1 = false) (hr : s.reck.referenced = true) (ht : s.takeSources = s) :
    s.round.reck.source = .alt ∧ s.round.prof.source = .alt ∧ s.round.reck.disagree = false
      ∧ s.round.reck.referenced = true ∧ s.round.chanPos .alt = s.chanPos .main
      ∧ s.round.chanPos .main = s.chanPos .main
      ∧ ∃ e ∈ s.round.faults, e.kind = .feedbackFailover := by
  obtain ⟨b1, b2, _, b4⟩ := s.bankStep_keeps
  have hb : ∀ i, s.bankStep.out i = s.out i := fun i => State.out_same (by rw [b4, ht])
  have bp := State.chanPos_same b1 s.bankStep_settles.outer.store
  obtain ⟨f1, f2, f3, f4, f5, f6, e, he, hk⟩ := State.failover_fires (s := s.bankStep)
    (by rw [b2, hs]) (by rw [hb, h0]) (by rw [hb, h1])
  rw [b2, hr] at f4
  have k : s.detect = s.bankStep.failover.refresh := by
    rw [State.detect, State.terminalReference_same
      (show s.returnToMain.bankStep.failover.reck.referenced = true by
        rw [show s.returnToMain = s by simp [State.returnToMain, hs]]; exact f4),
      show s.returnToMain = s by simp [State.returnToMain, hs]]
  generalize s.bankStep.failover = x at f1 f2 f3 f4 f5 f6 he k
  have z := x.refresh_steady.trans (State.runStep_steady _)
  have zs := x.refresh_settles.trans (State.runStep_settles _)
  have er : s.round = x.refresh.runStep := by rw [State.round, k]
  obtain ⟨e', he', f⟩ := zs.old e he
  rw [er]
  exact ⟨by rw [z.reck, f1], by rw [z.source, f2], by rw [z.reck, f3], by rw [z.reck, f4],
    (State.chanPos_same z.chan zs.outer.store _).trans (f5.trans (bp _)),
    (State.chanPos_same z.chan zs.outer.store _).trans (f6.trans (bp _)), e', he', f.kind.trans hk⟩

/-- A round in which the conditions of a return come to hold (R30). -/
theorem State.round_return {s : State} (hs : s.reck.source = .alt)
    (hp : s.run.state = .parked) (hf : ∀ e ∈ s.faults, e.kind ≠ .feedbackFailover)
    (h0 : s.out 0 = false) (hr : s.reck.referenced = true)
    (hd : (s.store.active.filter 0).source ≠ .disagree)
    (ht : s.takeSources.slots[0]? = s.slots[0]?) :
    s.round.reck.source = .main ∧ s.round.prof.source = .main ∧ s.round.reck.referenced = true
      ∧ s.round.slots[0]? = s.slots[0]?
      ∧ s.round.chanPos .main = s.chanPos .alt ∧ s.round.chanPos .alt = s.chanPos .alt
      ∧ s.round.reck.disagree = decide (mag (s.round.chanPos .main - s.round.chanPos .alt)
          > s.settings.disagree)
      ∧ s.round.reck.mainStall = s.reck.mainStall ∧ s.round.reck.altStall = s.reck.altStall := by
  obtain ⟨f1, f2, f3, f4, f5, f6, f7, f8, f9⟩ := State.returnToMain_fires hs hp hf h0
  have fo := s.returnToMain_settles.outer
  have ft : s.returnToMain.takeSources.slots[0]? = s.slots[0]? := by
    have e := s.takeSources_getElem? 0
    rw [ht] at e
    have hx : s.returnToMain.sourceLevel (s.store.active.filter 0).source
        = s.sourceLevel (s.store.active.filter 0).source :=
      State.sourceLevel_same fo.inputs f8 f9 (.inl hd)
    rw [State.takeSources_getElem?, f4, fo.store, fo.time]
    simp only [hx]
    exact e.symm
  generalize hx : s.returnToMain = x at *
  obtain ⟨b1, b2, b3, b4⟩ := x.bankStep_keeps
  have h2 : x.bankStep.failover = x.bankStep := by
    rw [State.failover, if_neg]
    rintro ⟨_, h, _⟩
    rw [State.out_same (s := s) (by rw [b4, ft]), h0] at h
    exact absurd h (by decide)
  have h3 : x.bankStep.terminalReference = x.bankStep :=
    State.terminalReference_same (by rw [b2, f3, hr])
  have k : s.round = x.bankStep.refresh.runStep := by rw [State.round, State.detect, hx, h2, h3]
  have z := (State.refresh_steady x.bankStep).trans (State.runStep_steady _)
  have zs := (State.refresh_settles x.bankStep).trans (State.runStep_settles _)
  have hp : ∀ ch, s.round.chanPos ch = x.chanPos ch := fun ch => by
    rw [k]
    exact State.chanPos_same (z.chan.trans b1) (zs.outer.store.trans x.bankStep_settles.outer.store) ch
  have hk : s.round.reck = x.reck := by rw [k, z.reck, b2]
  refine ⟨by rw [hk, f1], by rw [k, z.source, b3, f2], by rw [hk, f3, hr],
    by rw [k, z.slots, b4, ft], (hp _).trans f5, (hp _).trans f6, ?_, by rw [hk, f8], by rw [hk, f9]⟩
  rw [hk, f7, hp, hp]

/-- A condition that holds and that the Fault Handler has not taken is in the Active Fault Set once it
takes the conditions (R163). -/
theorem State.refresh_has {s : State} {c : Cond} (hc : c ∈ s.holding) (hn : c ∉ s.conds) :
    ∃ e ∈ s.refresh.faults, e.kind = c.kind := by
  have hm : c.report ∈ s.risen.map Cond.report :=
    List.mem_map_of_mem (List.mem_filter.2 ⟨hc, by simpa using hn⟩)
  have key (rs : List Report) (r : Report) (h : r ∈ rs) (u : State) :
      ∃ e ∈ (rs.foldl State.latch u).faults, e.kind = r.kind := by
    induction rs generalizing u with
    | nil => exact absurd h List.not_mem_nil
    | cons a rs ih =>
      rcases List.mem_cons.1 h with rfl | h
      · obtain ⟨e, he, hk, _⟩ := u.latch_has r
        obtain ⟨e', he', f⟩ := (Settles.foldl State.latch State.latch_settles rs (u.latch r)).old e he
        exact ⟨e', he', f.kind.trans hk⟩
      · exact ih h _
  obtain ⟨e, he, hk⟩ := key _ _ hm s.takeFalls
  obtain ⟨e', he', f⟩ := (State.takeReports_latched s.takeFalls _).old e he
  exact ⟨e', he', f.kind.trans hk⟩

/-- An expiry leaves the level that each slot last took (R48). -/
theorem State.expireSlots_level (s : State) (which : List (Fin 14)) (i : Nat) :
    ((s.expireSlots which).slots[i]?).map Slot.level = (s.slots[i]?).map Slot.level := by
  simp only [State.expireSlots, List.getElem?_map, List.getElem?_zipIdx, Option.map_map,
    Function.comp_def, Nat.zero_add]
  congr 1; funext sl; split <;> rfl

/-- Slots that have taken their sources have done so still where levels and sources stand. -/
theorem State.takeSources_still {s t : State} (hs : s.takeSources = s)
    (hl : ∀ i : Nat, (t.slots[i]?).map Slot.level = (s.slots[i]?).map Slot.level)
    (hi : t.inputs = s.inputs) (hr : t.reck = s.reck) (ho : t.store = s.store) :
    t.takeSources = t :=
  State.takeSources_same.2 fun i sl h => by
    have e := hl i
    rw [h] at e
    obtain ⟨sl', h', e'⟩ := Option.map_eq_some_iff.1 e.symm
    rw [ho, State.sourceLevel_same hi (by rw [hr]) (by rw [hr]) (.inr (by rw [hr])), ← e']
    exact State.takeSources_same.1 hs i sl' h'

end Sys2Proof.Machine
end

