-- ==== Sys2Proof/Laws/Supervision.lean ====
section
/-!
SUPPORT. Supervision (R121 to R123) at a sample and while its event settles: v_sup and the overspeed
conditions change at most as supervision ends, an overspeed condition that has risen gets its entry, and
v_sup stands as long as no run begins and the run state stays supervised.
-/

namespace Sys2Proof.Machine

-- One theorem at a time: side by side they ask for more threads than check.sh's memory holds.
set_option Elab.async false

/-! ## A sample before supervision -/

theorem State.missPass_watched (s : State) (k : Car) : Watched s (s.missPass k) :=
  (show Watched s (s.modReck _) from Watched.same).trans (State.takeReports_steady _ _).watched

theorem State.passTests_watched (s : State) (new : Sample) : Watched s (s.passTests new) := by
  have h (k : Car) (u : State) (cj) : Watched u (State.passTest new k u cj) := by
    unfold State.passTest; split
    · exact State.missPass_watched _ _
    · exact Watched.refl _
  have hf (k : Car) (l : List (Checkpoint × Nat)) :
      ∀ u : State, Watched u (l.foldl (State.passTest new k) u) := by
    induction l with
    | nil => exact fun u => Watched.refl u
    | cons a l ih => exact fun u => (h k u a).trans (ih _)
  unfold State.passTests; split
  · exact (hf _ _ _).trans (hf _ _ _)
  · exact Watched.refl _

theorem State.sampleTests_watched (s : State) (new : Sample) : Watched s (s.sampleTests new) := by
  unfold State.sampleTests; split
  · exact (State.passTests_watched _ _).trans
      (show Watched _ (((s.passTests new).updateZones new).testOvertravel new) from Watched.same)
  · exact Watched.refl _

theorem State.reckonSample_watched (s : State) : Watched s s.reckonSample := by
  unfold State.reckonSample; simp only
  have a : Watched s s.scheduleSample.formSpeeds.updateConditions := by
    unfold State.updateConditions State.restartStall
    simp only
    split <;> exact Watched.same
  exact ((a.trans (State.detect_sent _).watched).trans (State.sampleTests_watched _ _)).trans
    (show Watched _ (State.publish _ _) from Watched.same)

theorem State.permit_watched (s : State) : Watched s s.permit := by
  unfold State.permit
  simp only
  repeat' split
  all_goals exact Watched.same

theorem State.controlSample_watched (s : State) : Watched s s.controlSample :=
  ((State.sampleStandstill_steady _).watched.trans (State.testDistance_steady _).watched).trans
      (State.settle_sent _).watched

/-- Supervision keeps its law (R121 to R123). -/
theorem State.supervise_law (s : State) (h : s.SupervisionLaw) : s.supervise.SupervisionLaw := by
  unfold State.supervise; split
  · rename_i hs
    intro hn; exact absurd hn (by show ¬ s.run.state.speedSupervised = false; simp [hs])
  · exact h

theorem State.decideChecks_watched (s : State) (f) : Watched s (s.decideChecks f) := by
  unfold State.decideChecks State.failChecks; simp only
  have h0 := (s.modBrk_steady fun u => { u with checks := u.checks.filter fun c => !f c })
  generalize (s.modBrk fun u => { u with checks := u.checks.filter fun c => !f c }) = x at h0
  split
  · exact h0.watched
  · have h1 (r) : Steady s (x.report r) := h0.trans (State.takeReports_steady _ _)
    have h2 (y : State) (b : Prop) [Decidable b] (h : Steady s y) : Steady s
        (if b then y.apply ⟨false,true⟩ else y) := by
      split
      · exact h.trans (State.apply_steady _ _)
      · exact h
    split
    · exact ((h2 _ _ (h1 _)).trans (State.modBrk_steady _ _)).watched
    · exact (h2 _ _ (h1 _)).watched


/-! ## The conditions that the Fault Handler takes -/

/-- An overspeed condition that is false is not taken (R163). -/
theorem State.refresh_untaken {s : State} :
    (s.prof.curve = false → Cond.overspeedCurve ∉ s.refresh.conds)
    ∧ (s.prof.limit = false → Cond.overspeedLimit ∉ s.refresh.conds) := by
  have e : s.refresh.conds = s.holding := State.takeReports_conds _ _
  rw [e]
  constructor <;> intro h g <;> have := (List.mem_filter.1 g).2 <;> simp [State.holds, h] at this

/-- The part of a round before the Fault Handler takes the conditions. -/
def State.sense (s : State) : State := s.returnToMain.bankStep.failover.terminalReference

theorem State.sense_watched (s : State) : Watched s s.sense := by
  have h1 : Watched s s.returnToMain := by
    unfold State.returnToMain; split
    · exact Watched.same
    · exact Watched.refl _
  have h2 (u : State) : Watched u u.bankStep :=
    (show Watched u u.takeSources from Watched.same).trans (State.takeOutputs_steady _ _).watched
  have h3 (u : State) : Watched u u.failover := by
    unfold State.failover; split
    · exact (show Watched u (((u.modChan .alt fun c => c.rebase (u.chanPos .main)).setSource
        .alt).evalDisagree) from Watched.same).trans (State.takeReports_steady _ _).watched
    · exact Watched.refl _
  have h4 (u : State) : Watched u u.terminalReference := by
    unfold State.terminalReference; split
    · exact (u.reference_sent _ _).watched
    · exact Watched.refl _
  exact ((h1.trans (h2 _)).trans (h3 _)).trans (h4 _)

/-- An overspeed condition that is false before an event settles is false after it, and not taken. -/
theorem State.settle_untaken {s : State} :
    (s.prof.curve = false → s.settle.prof.curve = false ∧ Cond.overspeedCurve ∉ s.settle.conds)
    ∧ (s.prof.limit = false → s.settle.prof.limit = false ∧ Cond.overspeedLimit ∉ s.settle.conds) := by
  have w1 := State.sense_watched s
  have w2 : Watched s.sense.refresh s.settle := by
    have key (n : Nat) (u : State) : Watched u (State.rounds n u) := by
      induction n generalizing u with
      | zero => exact Watched.refl u
      | succ n ih => exact (u.detect_sent.watched.trans (State.runStep_steady _).watched).trans (ih _)
    exact (State.runStep_steady _).watched.trans (key 7 _)
  have r := (State.refresh_steady s.sense).watched
  constructor
  · intro h
    have p : s.sense.prof.curve = false := by rcases w1.curve with e | e <;> simp [e, h]
    have q : s.sense.refresh.prof.curve = false := by rcases r.curve with e | e <;> simp [e, p]
    refine ⟨by rcases w2.curve with e | e <;> simp [e, q], fun g => ?_⟩
    rcases w2.curveTaken g with x | x
    · exact State.refresh_untaken.1 p x
    · rw [q] at x; cases x
  · intro h
    have p : s.sense.prof.limit = false := by rcases w1.limit with e | e <;> simp [e, h]
    have q : s.sense.refresh.prof.limit = false := by rcases r.limit with e | e <;> simp [e, p]
    refine ⟨by rcases w2.limit with e | e <;> simp [e, q], fun g => ?_⟩
    rcases w2.limitTaken g with x | x
    · exact State.refresh_untaken.2 p x
    · rw [q] at x; cases x

/-! ## Supervision goes on -/

/-- From a supervised state, supervision goes on with its conditions. -/
def Supervised (s t : State) : Prop := s.run.state.speedSupervised = true →
  t.run.state.speedSupervised = true ∧ t.prof.curve = s.prof.curve ∧ t.prof.limit = s.prof.limit

theorem Supervised.same {s t : State} (hr : t.run.state = s.run.state := by rfl)
    (hc : t.prof.curve = s.prof.curve := by rfl) (hl : t.prof.limit = s.prof.limit := by rfl) :
        Supervised s t :=
  fun h => ⟨by rw [hr]; exact h, hc, hl⟩

theorem Supervised.trans {s t u : State} (a : Supervised s t) (b : Supervised t u) :
    Supervised s u := fun h => by
  obtain ⟨x, y, z⟩ := a h
  obtain ⟨x', y', z'⟩ := b x
  exact ⟨x', y'.trans y, z'.trans z⟩

theorem State.enterState_supervised (s : State) (st f c) (h : st.speedSupervised = true) :
    Supervised s (s.enterState st f c) := fun _ =>
  ⟨h, by simp [State.enterState, Profile.enter, h], by simp [State.enterState, Profile.enter, h]⟩

theorem State.startClass_supervised (s : State) (c : StopClass) : Supervised s (s.startClass c) := by
  unfold State.startClass; split <;> exact Supervised.same

theorem State.reactToFault_supervised (s : State) (c : StopClass) :
    Supervised s (s.reactToFault c) := by
  intro h
  have k : Supervised s (s.enterFaultStopping c) :=
    ((show Supervised s s.clearCalls.dropRun from Supervised.same).trans
        (State.enterState_supervised _ _ _ _ rfl)).trans
      (State.startClass_supervised _ _)
  have r : Supervised s (s.raiseClass c) := (State.enterState_supervised s _ _ _ rfl).trans
      (State.startClass_supervised _ _)
  cases e : s.run.state <;> rw [e] at h <;> simp only [State.reactToFault, e]
  all_goals first
    | exact absurd h (by decide)
    | exact k (by rw [e]; rfl)
    | (split
       · exact r (by rw [e]; rfl)
       · exact ⟨by rw [e]; rfl, rfl, rfl⟩)

theorem State.startCheck_supervised (s : State) (b : BrakeSet) : Supervised s (s.startCheck b) := by
  unfold State.startCheck; simp only; split <;> exact Supervised.same

theorem State.apply_supervised (s : State) (b : BrakeSet) : Supervised s (s.apply b) :=
  (show Supervised s (s.modBrk _) from Supervised.same).trans (State.startCheck_supervised _ _)

theorem State.latches_supervised (l : List Report) (s : State) :
    Supervised s (l.foldl State.latch s) := by
  induction l generalizing s with
  | nil => exact Supervised.same
  | cons a l ih =>
    have h : Supervised s (s.latch a) := by unfold State.latch; split <;> exact Supervised.same
    exact h.trans (ih _)

theorem State.takeReports_supervised (s : State) (rs) : Supervised s (s.takeReports rs) := by
  have e (u : State) : Supervised u u.emergencyDemand := (State.apply_supervised u _).trans
      Supervised.same
  unfold State.takeReports; simp only; split <;> split
  · exact ((State.latches_supervised _ _).trans (e _)).trans (State.reactToFault_supervised _ _)
  · exact (State.latches_supervised _ _).trans (State.reactToFault_supervised _ _)
  · exact (State.latches_supervised _ _).trans (e _)
  · exact State.latches_supervised _ _

theorem State.sense_supervised (s : State) : Supervised s s.sense := by
  have h1 : Supervised s s.returnToMain := by
    unfold State.returnToMain; split <;> exact Supervised.same
  have hb (u : State) (old) : Supervised u (u.brakeFeedback old) := by
    unfold State.brakeFeedback; simp only; split <;> split
    · exact (show Supervised u (u.modBrk _) from Supervised.same).trans
        ((State.apply_supervised _ _).trans (State.apply_supervised _ _))
    · exact (show Supervised u (u.modBrk _) from Supervised.same).trans (State.apply_supervised _ _)
    · exact (show Supervised u (u.modBrk _) from Supervised.same).trans (State.apply_supervised _ _)
    · exact Supervised.same
  have h2 (u : State) : Supervised u u.bankStep :=
    (show Supervised u (u.takeSources.modProf fun p => { p with wind := u.takeSources.out 9 }) from
        Supervised.same).trans
      ((hb _ _).trans (State.takeReports_supervised _ _))
  have h3 (u : State) : Supervised u u.failover := by
    unfold State.failover; split
    · exact (show Supervised u (((u.modChan .alt fun c => c.rebase (u.chanPos .main)).setSource
        .alt).evalDisagree) from Supervised.same).trans (State.takeReports_supervised _ _)
    · exact Supervised.same
  have h4 (u : State) : Supervised u u.terminalReference := by
    unfold State.terminalReference; split
    · unfold State.reference State.takeCreepTarget
      simp only
      repeat' split
      all_goals exact Supervised.same
    · exact Supervised.same
  exact ((h1.trans (h2 _)).trans (h3 _)).trans (h4 _)

theorem State.decideChecks_supervised (s : State) (f) : Supervised s (s.decideChecks f) := by
  unfold State.decideChecks State.failChecks; simp only
  split
  · exact Supervised.same
  · have h0 : Supervised s (s.modBrk fun u => { u with checks := u.checks.filter fun c => !f c }) :=
      Supervised.same
    generalize (s.modBrk fun u => { u with checks := u.checks.filter fun c => !f c }) = x at h0
    have h1 (r) : Supervised s (x.report r) := h0.trans (State.takeReports_supervised _ _)
    have h2 (y : State) (b : Prop) [Decidable b] (h : Supervised s y) : Supervised s
        (if b then y.apply ⟨false,true⟩ else y) := by
      split
      · exact h.trans (State.apply_supervised _ _)
      · exact h
    split
    · exact (h2 _ _ (h1 _)).trans Supervised.same
    · exact h2 _ _ (h1 _)

theorem State.decideChecks_conds (s : State) (f) : (s.decideChecks f).conds = s.conds := by
  unfold State.decideChecks State.failChecks; simp only
  split
  · rfl
  · have k (y : State) (g) : (y.modBrk g).conds = y.conds := rfl
    have r (y : State) (x) : (y.report x).conds = y.conds := State.takeReports_conds _ _
    repeat' split
    all_goals simp only [k, State.apply_conds, r]

theorem State.sense_conds (s : State) : s.sense.conds = s.conds := by
  have h1 : s.returnToMain.conds = s.conds := by unfold State.returnToMain; split <;> rfl
  have h2 (u : State) : u.bankStep.conds = u.conds := State.takeOutputs_conds _ _
  have h3 (u : State) : u.failover.conds = u.conds := by
    unfold State.failover; split
    · exact State.takeReports_conds _ _
    · rfl
  have h4 (u : State) : u.terminalReference.conds = u.conds := by
    unfold State.terminalReference; split
    · unfold State.reference State.takeCreepTarget
      simp only
      repeat' split
      all_goals rfl
    · rfl
  unfold State.sense
  rw [h4, h3, h2, h1]

/-- An overspeed condition that has risen in a supervised state has its entry once the event has settled
(R122, R123, R163). -/
theorem State.settle_overspeed {s : State} (hs : s.run.state.speedSupervised = true) :
    (s.prof.curve = true → Cond.overspeedCurve ∉ s.conds →
        ∃ e ∈ s.settle.faults, e.kind = .overspeedCurve)
    ∧ (s.prof.limit = true → Cond.overspeedLimit ∉ s.conds →
        ∃ e ∈ s.settle.faults, e.kind = .overspeedLimit) := by
  obtain ⟨_, hc, hl⟩ := State.sense_supervised s hs
  have old : ∀ e ∈ s.sense.refresh.faults, ∃ e' ∈ s.settle.faults, e'.kind = e.kind := fun e he => by
    obtain ⟨e', he', f⟩ := ((State.runStep_settles _).trans (State.rounds_settles 7 _)).old e he
    exact ⟨e', he', f.kind⟩
  constructor
  · intro h hn
    obtain ⟨e, he, k⟩ := State.refresh_has (s := s.sense) (c := .overspeedCurve)
      (List.mem_filter.2 ⟨by decide, by show s.sense.prof.curve = true; rw [hc, h]⟩)
          (by rw [State.sense_conds]; exact hn)
    obtain ⟨e', he', k'⟩ := old e he
    exact ⟨e', he', k'.trans k⟩
  · intro h hn
    obtain ⟨e, he, k⟩ := State.refresh_has (s := s.sense) (c := .overspeedLimit)
      (List.mem_filter.2 ⟨by decide, by show s.sense.prof.limit = true; rw [hl, h]⟩)
          (by rw [State.sense_conds]; exact hn)
    obtain ⟨e', he', k'⟩ := old e he
    exact ⟨e', he', k'.trans k⟩

/-! ## No run begins -/

/-- No run begins: the counter as it was, and supervision at most ended, with v_sup as it was. -/
structure NoRun (s t : State) : Prop where
  counter : t.run.counter = s.run.counter
  on : s.run.state ≠ .preparing → t.run.state ≠ .preparing
    ∧ (t.run.state.speedSupervised = true → s.run.state.speedSupervised = true
        ∧ t.prof.vSup = s.prof.vSup)

theorem NoRun.same {s t : State} (hr : t.run.state = s.run.state := by rfl)
    (hc : t.run.counter = s.run.counter := by rfl)
    (hv : t.prof.vSup = s.prof.vSup := by rfl) : NoRun s t :=
  ⟨hc, fun h => ⟨by rw [hr]; exact h, fun g => ⟨by rw [← hr]; exact g, hv⟩⟩⟩

theorem NoRun.trans {s t u : State} (a : NoRun s t) (b : NoRun t u) : NoRun s u where
  counter := b.counter.trans a.counter
  on h := by
    obtain ⟨x, y⟩ := a.on h
    obtain ⟨z, w⟩ := b.on x
    refine ⟨z, fun g => ?_⟩
    obtain ⟨p, q⟩ := w g
    obtain ⟨p', q'⟩ := y p
    exact ⟨p', q.trans q'⟩

theorem State.enterState_noRun (s : State) (st f c) (h : st ≠ .preparing)
    (hs : st.speedSupervised = true → s.run.state.speedSupervised = true) :
    NoRun s (s.enterState st f c) where
  counter := rfl
  on _ := ⟨h, fun g => ⟨hs g, by
    have g : st.speedSupervised = true := g
    show (if st.speedSupervised = true then s.prof.vSup else 0) = _
    rw [if_pos g]⟩⟩

theorem NoRun.leaves {s t : State} (h : s.run.state = .preparing)
    (hc : t.run.counter = s.run.counter) : NoRun s t :=
  ⟨hc, fun g => absurd h g⟩

theorem State.startClass_noRun (s : State) (c : StopClass) : NoRun s (s.startClass c) := by
  unfold State.startClass; split <;> exact NoRun.same

theorem State.reactToFault_noRun (s : State) (c : StopClass) : NoRun s (s.reactToFault c) := by
  have k (h : s.run.state.speedSupervised = true) : NoRun s (s.enterFaultStopping c) :=
    ((show NoRun s s.clearCalls.dropRun from NoRun.same).trans
      (State.enterState_noRun _ _ _ _ (by decide) fun _ => h)).trans (State.startClass_noRun _ _)
  have r (h : s.run.state.speedSupervised = true) : NoRun s (s.raiseClass c) :=
    (State.enterState_noRun s _ _ _ (by decide) fun _ => h).trans (State.startClass_noRun _ _)
  have e : NoRun s s.enterFaultHeld :=
    (show NoRun s s.clearCalls.dropRun from NoRun.same).trans (State.enterState_noRun _ _ _ _
        (by decide) fun g => by cases g)
  cases he : s.run.state <;> simp only [State.reactToFault, he]
  all_goals first
    | exact e
    | exact NoRun.same
    | exact k (by rw [he]; rfl)
    | (split
       · exact r (by rw [he]; rfl)
       · exact NoRun.same)

theorem State.startCheck_noRun (s : State) (b : BrakeSet) : NoRun s (s.startCheck b) := by
  unfold State.startCheck; simp only; split <;> exact NoRun.same

theorem State.apply_noRun (s : State) (b : BrakeSet) : NoRun s (s.apply b) :=
  (show NoRun s (s.modBrk _) from NoRun.same).trans (State.startCheck_noRun _ _)

theorem State.latches_noRun (l : List Report) (s : State) : NoRun s (l.foldl State.latch s) := by
  induction l generalizing s with
  | nil => exact NoRun.same
  | cons a l ih =>
    have h : NoRun s (s.latch a) := by unfold State.latch; split <;> exact NoRun.same
    exact h.trans (ih _)

theorem State.takeReports_noRun (s : State) (rs) : NoRun s (s.takeReports rs) := by
  have e (u : State) : NoRun u u.emergencyDemand := (State.apply_noRun u _).trans NoRun.same
  unfold State.takeReports; simp only; split <;> split
  · exact ((State.latches_noRun _ _).trans (e _)).trans (State.reactToFault_noRun _ _)
  · exact (State.latches_noRun _ _).trans (State.reactToFault_noRun _ _)
  · exact (State.latches_noRun _ _).trans (e _)
  · exact State.latches_noRun _ _

theorem State.detect_noRun (s : State) : NoRun s s.detect := by
  have h1 : NoRun s s.returnToMain := by
    unfold State.returnToMain; split <;> exact NoRun.same
  have hb (u : State) (old) : NoRun u (u.brakeFeedback old) := by
    unfold State.brakeFeedback; simp only; split <;> split
    · exact (show NoRun u (u.modBrk _) from NoRun.same).trans ((State.apply_noRun _ _).trans
        (State.apply_noRun _ _))
    · exact (show NoRun u (u.modBrk _) from NoRun.same).trans (State.apply_noRun _ _)
    · exact (show NoRun u (u.modBrk _) from NoRun.same).trans (State.apply_noRun _ _)
    · exact NoRun.same
  have h2 (u : State) : NoRun u u.bankStep :=
    (show NoRun u (u.takeSources.modProf fun p => { p with wind := u.takeSources.out 9 }) from
        NoRun.same).trans
      ((hb _ _).trans (State.takeReports_noRun _ _))
  have h3 (u : State) : NoRun u u.failover := by
    unfold State.failover; split
    · exact (show NoRun u (((u.modChan .alt fun c => c.rebase (u.chanPos .main)).setSource
        .alt).evalDisagree) from NoRun.same).trans (State.takeReports_noRun _ _)
    · exact NoRun.same
  have h4 (u : State) : NoRun u u.terminalReference := by
    unfold State.terminalReference; split
    · unfold State.reference State.takeCreepTarget
      simp only
      repeat' split
      all_goals exact NoRun.same
    · exact NoRun.same
  exact (((h1.trans (h2 _)).trans (h3 _)).trans (h4 _)).trans
    ((show NoRun _ (State.takeFalls _) from NoRun.same).trans (State.takeReports_noRun _ _))

theorem State.enterParked_noRun (s : State) : NoRun s s.enterParked :=
  (State.enterState_noRun s .parked none none (by decide) fun g => by cases g).trans NoRun.same

theorem State.enterDwell_noRun (s : State) (x ids) : NoRun s (s.enterDwell x ids) := by
  have h1 : NoRun s (s.serveDwell x ids (s.stopErrors x)) := by cases x <;> exact NoRun.same
  have h2 (u : State) (e : PerCar Int) (d : Option Nat) : NoRun u ((u.modRun fun r =>
      { r with dwellStop := some x, dwellErr := e, dwellDue := d, record := none }).enterState
        .dwell) :=
    (show NoRun u (u.modRun _) from NoRun.same).trans (State.enterState_noRun _ _ _ _
        (by decide) fun g => by cases g)
  unfold State.enterDwell; simp only; split
  · exact (h1.trans (h2 _ _ _)).trans (State.takeReports_noRun _ _)
  · exact h1.trans (h2 _ _ _)

theorem State.endSettling_noRun (s : State) : NoRun s s.endSettling := by
  have h : NoRun s s.disableDrive := (State.apply_noRun _ _).trans NoRun.same
  unfold State.endSettling; simp only; repeat' split
  all_goals first
    | exact h.trans (State.enterState_noRun _ _ _ _ (by decide) fun g => by cases g)
    | exact h.trans (State.enterDwell_noRun _ _ _)
    | exact h.trans (State.enterParked_noRun _)

theorem State.runSettling_noRun (s : State) : NoRun s s.runSettling := by
  unfold State.runSettling; simp only; split <;> split
  · exact (State.apply_noRun _ _).trans (State.endSettling_noRun _)
  · exact State.apply_noRun _ _
  · exact State.endSettling_noRun _
  · exact NoRun.same

theorem State.runFaultStopping_noRun (s : State) : NoRun s s.runFaultStopping := by
  unfold State.runFaultStopping; simp only
  have h1 : NoRun s (if s.classApplies then s.classApply else s) := by
    split
    · exact (State.apply_noRun _ _).trans NoRun.same
    · exact NoRun.same
  generalize (if s.classApplies then s.classApply else s) = s1 at h1
  have h2 : NoRun s (if s1.brakesDone ∧ s1.brk.enable = true then s1.disableDrive else s1) := by
    split
    · exact h1.trans ((State.apply_noRun _ _).trans NoRun.same)
    · exact h1
  generalize (if s1.brakesDone ∧ s1.brk.enable = true then s1.disableDrive else s1) = s2 at h2
  split
  · exact h2.trans (State.enterState_noRun _ _ _ _ (by decide) fun g => by cases g)
  · exact h2

/-- A move of the Run Controller begins no run, or counts one (R80). -/
theorem State.runStep_noRun (s : State) :
    NoRun s s.runStep ∨ s.runStep.run.counter = s.run.counter + 1 := by
  have hp (u : State) (m d x ids) : (u.enterPreparing m d x ids).run.counter = u.run.counter + 1 := by
    unfold State.enterPreparing; simp only; cases x <;> rfl
  have ha : NoRun s s.arbitrate ∨ s.arbitrate.run.counter = s.run.counter + 1 := by
    unfold State.arbitrate; simp only
    have h0 : NoRun s (s.modRun fun r => { r with arbitrate := false }) := NoRun.same
    split
    · unfold State.takeChoice; split
      · exact .inl h0
      · exact .inl (h0.trans (State.enterDwell_noRun _ _ _))
      · exact .inr (hp _ _ _ _ _)
    · exact .inl h0
  have he (r) : (s.exitPreparing r).run.counter = s.run.counter := by
    unfold State.exitPreparing; simp only; split <;> rfl
  cases hs : s.run.state <;> simp only [State.runStep, hs]
  case parked =>
    split
    · exact ha
    · exact .inl NoRun.same
  case preparing =>
    split
    · split
      · exact .inl (NoRun.leaves hs (he _))
      · exact .inl NoRun.same
    · exact .inl NoRun.same
  case releasing =>
    left; split
    · unfold State.enterRunning
      have e : s.run.state.speedSupervised = true := by rw [hs]; rfl
      exact (State.enterState_noRun s .running none none (by decide) fun _ => e).trans NoRun.same
    · exact NoRun.same
  case settling => exact .inl (State.runSettling_noRun s)
  case dwell =>
    left; split
    · exact State.enterParked_noRun s
    · exact NoRun.same
  case faultStopping => exact .inl (State.runFaultStopping_noRun s)
  case faultHeld =>
    left; split
    · exact NoRun.same
    · exact (show NoRun s (s.modBrk _) from NoRun.same).trans (State.enterParked_noRun _)
  all_goals exact .inl NoRun.same

theorem State.rounds_noRun (n : Nat) (s : State) : ∃ k, k ≤ n
    ∧ (State.rounds n s).run.counter = s.run.counter + BitVec.ofNat 16 k
    ∧ (k = 0 → NoRun s (State.rounds n s)) := by
  induction n generalizing s with
  | zero => exact ⟨0, le_refl _, by simp [State.rounds], fun _ => NoRun.same⟩
  | succ n ih =>
    obtain ⟨k, hk, e, h⟩ := ih s.round
    have d := State.detect_noRun s
    rcases State.runStep_noRun s.detect with r | r
    · refine ⟨k, by omega, ?_, fun hk0 => (d.trans r).trans (h hk0)⟩
      show (State.rounds n s.round).run.counter = _
      rw [e, show s.round.run.counter = _ from (d.trans r).counter]
    · refine ⟨k + 1, by omega, ?_, fun h0 => by omega⟩
      show (State.rounds n s.round).run.counter = _
      rw [e, show s.round.run.counter = _ from r, d.counter, BitVec.ofNat_add]
      rw [BitVec.add_assoc, BitVec.add_comm (1 : BitVec 16)]; rfl

/-- While no run begins, a supervised state that an event leaves was supervised, with that v_sup. -/
theorem State.settle_noRun {s : State} (h : s.settle.run.counter = s.run.counter) :
    NoRun s s.settle := by
  obtain ⟨k, hk, e, g⟩ := State.rounds_noRun 8 s
  refine g ?_
  rw [show s.settle = State.rounds 8 s from rfl, e] at h
  have z : BitVec.ofNat 16 k = 0 := by
    generalize s.run.counter = a at h
    generalize BitVec.ofNat 16 k = b at h ⊢
    bv_omega
  have := congrArg BitVec.toNat z
  rw [BitVec.toNat_ofNat] at this
  exact (Nat.mod_eq_of_lt (by omega : k < 2 ^ 16)).symm.trans this

theorem State.decideChecks_noRun (s : State) (f) : NoRun s (s.decideChecks f) := by
  unfold State.decideChecks State.failChecks; simp only
  split
  · exact NoRun.same
  · have h0 : NoRun s (s.modBrk fun u => { u with checks := u.checks.filter fun c => !f c }) :=
      NoRun.same
    generalize (s.modBrk fun u => { u with checks := u.checks.filter fun c => !f c }) = x at h0
    have h1 (r) : NoRun s (x.report r) := h0.trans (State.takeReports_noRun _ _)
    have h2 (y : State) (b : Prop) [Decidable b] (h : NoRun s y) : NoRun s
        (if b then y.apply ⟨false,true⟩ else y) := by
      split
      · exact h.trans (State.apply_noRun _ _)
      · exact h
    split
    · exact (h2 _ _ (h1 _)).trans NoRun.same
    · exact h2 _ _ (h1 _)

end Sys2Proof.Machine
end

