-- ==== Sys2Proof/Tests/Slice0.lean ====
section
/-!
SUPPORT. The model's own tests: the well-formedness smoke tests, the manual's worked examples, and for
each statement of Certificates/Slice0/Obligations.lean a witness that its hypotheses can be met.
-/

namespace Sys2Proof.Tests

open Sys2Proof Sys2Proof.Machine

-- One theorem at a time: evaluated side by side, they ask for more threads than check.sh's memory holds.
set_option Elab.async false

/-! ## States for the tests -/

/-- The segments of the line of the manual's worked example (1.8). -/
def lineSegments : List Segment :=
  [⟨0, 2500, 1, .platform⟩, ⟨60000, 10000, 2, .plain⟩, ⟨610000, 6000, 3, .tunnel⟩,
   ⟨980000, 10000, 2, .plain⟩, ⟨1330000, 6000, 1, .plain⟩, ⟨1390000, 3000, 0, .loop⟩,
   ⟨1456000, 6000, 1, .plain⟩, ⟨1520000, 8000, 2, .bridge⟩, ⟨1700000, 10000, 3, .plain⟩,
   ⟨2786000, 2500, 1, .platform⟩]

/-- The checkpoints of that line. -/
def lineCheckpoints : List Checkpoint :=
  [⟨300000, .any, 8, 400⟩, ⟨1200000, .any, 9, 400⟩, ⟨1405000, .east, 10, 300⟩,
   ⟨1405000, .west, 11, 300⟩, ⟨1650000, .any, 12, 400⟩, ⟨2500000, .any, 13, 400⟩]

/-- An Operating Set for that line; slot 9 follows input 9 with a set count of 50 ms and no clear
count, and slot 13 is true. -/
def lineSet : OperatingSet :=
  { OperatingSet.factory with
    segCount := 10
    segs := lineSegments ++ List.replicate 38 Segment.factory
    cpCount := 6
    cps := lineCheckpoints ++ OperatingSet.factory.cps.drop 6
    lower := ⟨20000, 2825800, 250⟩
    loop := ⟨1422600, 1423000, 300⟩
    upper := ⟨2826000, 19700, 250⟩
    settings :=
      { Settings.factory with
        ac0 := 1200, ac1 := 1100, ac2 := 1000, ac3 := 900, aAcc := 600, dF := 150, cMax := 1000 }
    filters :=
      ((List.range 9).map FilterConfig.factory) ++ [⟨.input 9, true, 50, 0, true⟩]
        ++ ((List.range 3).map fun i => FilterConfig.factory (i + 10))
        ++ [⟨.alwaysTrue, false, 0, 0, false⟩] }

/-- A store that holds that set, commissioned and locked. -/
def lineStore : Store where
  consts := ⟨some 2846000, some 60000, some 38, some 420, some 14000, some 12000, some 100, some 100⟩
  lock := true
  stored := lineSet
  mark := true
  active := lineSet
  staging := none
  cycle := .idle

/-- Every receiver in a receive state. -/
def received (rx : Receiver) (l : PerParty Link) : PerParty Link where
  console := { l.console with rx := rx }
  drive := { l.drive with rx := rx }
  car1 := { l.car1 with rx := rx }
  car2 := { l.car2 with rx := rx }
  loopStation := { l.loopStation with rx := rx }

/-- The cars stand PARKED at LOWER, referenced and at rest, car 1's doors closed but not locked; every
receiver has taken a SYNC. -/
def base : State :=
  { State.reset with
    links := received (.inFrame []) State.reset.links
    slots := List.replicate 13 Slot.afterReset ++ [⟨true, true, none, false⟩]
    reck :=
      { Reckoner.afterReset with
        referenced := true
        sample := { Sample.afterReset with s := 20472, p := ⟨20000, 2825500⟩, referenced := true } }
    store := lineStore
    run := { RunControl.afterReset with standstill := true }
    faults := []
    conds := []
    tableInvalid := false
    recs :=
      ⟨⟨⟨.closed, false, some 6000⟩, ⟨.closedLocked, false, some 1200⟩⟩,
        ⟨.closedLocked, .closedLocked⟩, ⟨true, 0⟩⟩ }

/-- Both cars' doors are locked. -/
def locked : State :=
  { base with recs := { base.recs with car := ⟨⟨.closedLocked, false, some 6000⟩, base.recs.car.two⟩ } }

/-- A Run Record of a run UP from LOWER to UPPER. -/
def upRecord : RunRecord where
  number := 1
  mode := .stop
  dir := .up
  origin := some .lower
  target := some .upper
  sStar := some 2826176
  frozen := some ⟨some 6000, some 1200⟩
  served := [⟨.console, .stop, .upper⟩]
  merged := false

/-- The console's call for UPPER. -/
def upEntry : Entry := ⟨⟨.console, .stop, .upper⟩, .both, false⟩

/-- The line in a state of that run, at s and v, with the brakes released and DRIVE ENABLE on. -/
def moving (st : RunState) (s v : Int) : State :=
  { locked with
    queue := [upEntry]
    reck :=
      { locked.reck with
        sample := { locked.reck.sample with s := s, v := v, p := ⟨s - 500, 2846000 - s - 300⟩ } }
    run := { locked.run with state := st, record := some upRecord, counter := 1, standstill := false }
    target := some ⟨.upper, ⟨2826176, 2826176⟩, true, 2826176, none, ⟨0, 0⟩⟩
    prof := { locked.prof with vLocal := 10000, vP := 9000, vRef := 8000, ctx := some ⟨.up, false, 729, true⟩ }
    brk :=
      { BrakeUnit.afterReset with
        enable := true, service := ⟨.released, none, false⟩, emergency := ⟨.released, none, false⟩ } }

/-- The line in a state of that run in which the rope stands and all outputs are off. -/
def standing (st : RunState) : State :=
  { moving st 1000000 0 with
    prof := { locked.prof with ctx := some ⟨.up, false, 729, true⟩ }
    brk := BrakeUnit.afterReset }

/-- A fault entry. -/
def entry (k : FaultKind) (c : StopClass) (isPresent reported : Bool) : FaultEntry :=
  ⟨k, c, 0, 1, isPresent, reported, ⟨false, false⟩, ⟨false, false⟩⟩

/-- The line FAULT_HELD with entries in the Active Fault Set. -/
def faulted (fs : List FaultEntry) : State :=
  { base with run := { base.run with state := .faultHeld }, faults := fs }

/-- The line in DWELL at a stop, its dwell timer due at 5 s. -/
def dwelling (s : State) (x : Stop) : State :=
  { s with run := { s.run with state := .dwell, dwellStop := some x, dwellDue := some 5000000 } }

/-- A creep run UP without a target, whose hold lapses at 5 ms. -/
def creeping (st : RunState) : State :=
  { moving st 1000000 300 with
    queue := []
    run :=
      { (moving st 1000000 300).run with
        record := some { upRecord with mode := .creep, target := none, sStar := none, served := [] }
        creepDue := some 5000 }
    target := none
    prof := { locked.prof with vRef := 300, ctx := some ⟨.up, true, 729, false⟩ } }

/-- Whether a command ends in a next state with a property. -/
def ends (c : Instr) (s : State) (p : State → Bool) : Bool :=
  match exec c s with
  | .next t => p t
  | _ => false

/-- Whether a command changes a part of the state. -/
def changes {α : Type} [DecidableEq α] (c : Instr) (s : State) (f : State → α) : Bool :=
  c.wf && decide (c ≠ .reset) && ends c s fun t => decide (f t ≠ f s)

/-! ## Conditions as computations -/

/-- AtRest as a computation. -/
def restful (s : State) : Bool :=
  decide (s.takeSources = s) && decide (s.prof.wind = s.out 9)
    && !decide (s.reck.source = .main ∧ s.out 0 = true ∧ s.out 1 = false)
    && decide (s.reck.source = .main)
    && !decide (s.reck.referenced = false ∧ s.run.standstill = true ∧ (s.out 5 != s.out 6) = true)
    && (s.run.state.speedSupervised || decide (s.prof.curve = false ∧ s.prof.limit = false))
    && decide (s.conds = s.holding)

theorem atRest {s : State} (h : restful s = true) : s.AtRest := by
  simp only [restful, Bool.and_eq_true, Bool.or_eq_true, Bool.not_eq_true', decide_eq_true_eq,
    decide_eq_false_iff_not] at h
  obtain ⟨⟨⟨⟨⟨⟨h1, h2⟩, h3⟩, h4⟩, h5⟩, h6⟩, h7⟩ := h
  exact ⟨h1, h2, h3, h4, h5, fun hs => h6.resolve_left (by simp [hs]), h7⟩

/-- RunLaws as a computation. -/
def lawful (s : State) : Bool :=
  (!(s.brk.service.output || s.brk.emergency.output) || s.brk.enable)
    && (!s.brk.service.ended || decide (s.brk.service.state = .applying))
    && (!s.brk.emergency.ended || decide (s.brk.emergency.state = .applying))
    && (!s.run.state.standing || !s.brk.enable) && (!s.stopDemanded || s.run.state.isFault)
    && decide (s.run.record.isSome = s.run.state.hasRecord)
    && (!s.run.state.zeroReference || decide (s.prof.vRef = 0))

theorem runLaws {s : State} (h : lawful s = true) : s.RunLaws := by
  simp only [lawful, Bool.and_eq_true, Bool.or_eq_true, Bool.not_eq_true', decide_eq_true_eq] at h
  obtain ⟨⟨⟨⟨⟨⟨h1, h2⟩, h3⟩, h4⟩, h5⟩, h6⟩, h7⟩ := h
  refine ⟨?_, ⟨?_, ?_⟩, ?_, ?_, h6, ?_⟩
  · rintro (h | h) <;> simp_all
  · intro h; simpa [h] using h2
  · intro h; simpa [h] using h3
  · intro h; simpa [h] using h4
  · intro h; simpa [h] using h5
  · intro h; simpa [h] using h7

/-- An input that names a single checkpoint, as a computation. -/
theorem only {l : List Checkpoint} {n : Nat} {j : Nat}
    (h : (l.zipIdx.all fun x => decide (x.1.input.val = n → x.2 = j)) = true) (i : Nat) (c : Checkpoint)
    (hc : l[i]? = some c) (hn : c.input.val = n) : i = j := by
  rw [List.all_eq_true] at h
  have := h (c, i) (List.mem_zipIdx_iff_getElem?.mpr hc)
  exact (of_decide_eq_true this) hn

theorem lineSet_classes : lineSet.ClassLaw := by
  refine ⟨by decide, fun k => ?_⟩
  cases k <;> decide

theorem factory_classes : OperatingSet.factory.ClassLaw := by
  refine ⟨by decide, fun k => ?_⟩
  cases k <;> decide

/-- FaultLaw of a state with the line's store and a checked list of entries. -/
theorem faultLaw {s : State} (hs : s.store = lineStore)
    (ho : s.faults.Pairwise (fun a b => a.kind.code < b.kind.code))
    (he : ∀ e ∈ s.faults, 1 ≤ e.count ∧ e.count ≤ 255 ∧ e.kind.leastClass.rank ≤ e.cls.rank
      ∧ (e.kind.floor = none → e.cls = e.kind.defaultClass)) : s.FaultLaw := by
  refine ⟨?_, ho, he⟩
  rw [hs]
  intro o h
  have : o = lineSet := by
    simpa [Store.sets, lineStore] using h
  rw [this]; exact lineSet_classes

theorem base_shape : base.ShapeLaw := by refine ⟨?_, ?_, ?_, ?_⟩ <;> decide

theorem base_ready : base.Ready := ⟨rfl, rfl, rfl⟩

/-! ## Well-formedness: each check refuses a term -/

theorem test_wf_inputs_distinct : Instr.wf (.inputLevelChange 0 [(3, 0), (3, 24000)]) = false := by
  decide
theorem test_wf_inputs_nonempty : Instr.wf (.inputLevelChange 0 []) = false := by decide
theorem test_wf_slots_distinct : Instr.wf (.filterTimerExpiry 0 [3, 3]) = false := by decide
theorem test_wf_slots_nonempty : Instr.wf (.filterTimerExpiry 0 []) = false := by decide
theorem test_wf_crc : Instr.wf (.crcFailedFrame 0 .console 0x12 [7] (Frame.crc ⟨0x12, [7]⟩)) = false := by
  decide +kernel
theorem test_wf_bad_type : Instr.wf (.badTypeFrame 0 .console 0x12 [7]) = false := by decide
theorem test_wf_payload : Instr.wf (.suspend 0 (List.replicate 193 0)) = false := by decide +kernel
theorem test_wf_call_party : Instr.wf (.callLoop 0 .drive [7, 1]) = false := by decide
theorem test_wf_scopes : Instr.wf (.cancelEntry 0 [7, 2, 1]) = false
    ∧ Instr.wf (.cancelAll 0 [7, 1, 1]) = false ∧ Instr.wf (.cancelRun 0 [7, 1, 1]) = false := by decide
theorem test_wf_ack : Instr.wf (.ackFault 0 [7, 0]) = false
    ∧ Instr.wf (.ackFaultAll 0 [7, 9]) = false := by decide
theorem test_wf_len : Instr.wf (.lenAbove192 0 .drive ⟨0x12, 192⟩) = false := by decide
theorem test_wf_not_permitted : Instr.wf (.notPermittedFrame 0 .console 0x12 [7]) = false
    ∧ Instr.wf (.notPermittedFrame 0 .drive 0x30 [7]) = false := by decide

/-! ## The manual's worked examples -/

/-- The CRC over "123456789" is 0x29B1 (R178's polynomial and start value). -/
theorem test_crc_check_value :
    crc16 [0x31, 0x32, 0x33, 0x34, 0x35, 0x36, 0x37, 0x38, 0x39] = 0x29B1 := by decide +kernel

/-- The roots of the worked examples of 4.9 and 6.7. -/
theorem test_isqrt : isqrt 177626682 = 13327 ∧ isqrt 5582682 = 2362 ∧ isqrt 42282000 = 6502
    ∧ isqrt 47664000 = 6903 ∧ isqrt 0 = 0 := by decide +kernel

/-- The line of 1.8 passes validation, and each edit of it fails at its item. -/
theorem test_validation : lineSet.validate (some 2846000) = none
    ∧ lineSet.validate none = some 1 ∧ { lineSet with segCount := 9 }.validate (some 2846000) = some 3
    ∧ { lineSet with settings := { lineSet.settings with dF := 151, m := 200 } }.validate
      (some 2846000) = some 10 := by decide +kernel

/-- The run of 7.5: the split stop formed at PREPARING exit, with corrections −180 and −20. -/
def loopRun (c1 c2 : Int) : State :=
  { moving .running 1200000 8000 with
    reck := { (moving .running 1200000 8000).reck with c := ⟨c1, c2⟩ } }

theorem test_split_target : (loopRun (-180) (-20)).targetFor .loop
      [⟨⟨.loopStation, .stop, .loop⟩, .both, false⟩, ⟨⟨.car1, .stop, .loop⟩, .east, false⟩,
        ⟨⟨.car2, .stop, .loop⟩, .west, false⟩]
    = ⟨.loop, ⟨1423253, 1422621⟩, false, 1423253, some .one, ⟨0, -632⟩⟩ := by decide +kernel

theorem test_shared_target : (loopRun 35 (-20)).targetFor .loop []
    = ⟨.loop, ⟨1423038, 1422621⟩, true, 1422829, none, ⟨-209, -208⟩⟩ := by decide +kernel

/-- The run deceleration of 6.7, 729 mm/s², and 684 and 540 with unknown loads. -/
theorem test_run_decel : locked.runDecel ⟨20000, 2825500⟩ 20472 (some 2826176) = 729
    ∧ derate 900 6000 = 684 ∧ derate 900 12000 = 540 := by decide +kernel

/-- The boundary curve, target curve and curve trip of 6.7. -/
theorem test_curves : targetCurve 729 30000 1000 = 6502 ∧ boundaryCurve 6000 729 8000 = 6903
    ∧ curveTrips 6827 6502 = false ∧ curveTrips 6828 6502 = true := by decide +kernel

/-- Car 2 at checkpoint 4 (2.8): an edge 6 ms after sample D moves its correction from −60 to −408. -/
def atCheckpoint : State :=
  { loopRun 0 (-60) with
    reck :=
      { (loopRun 0 (-60)).reck with
        sample :=
          { base.reck.sample with
            s := 1195240, v := 8000, p := ⟨1194700, 1650396⟩, referenced := true, time := 0 } } }

theorem test_matched_edge : ends (.inputLevelChange 6000 [(12, 24000)]) atCheckpoint (fun t =>
    decide (t.reck.c.two = -408) && decide (t.reck.miss.two = 0)
      && decide (t.reck.zone .two 4 = .withinMatched)) = true := by decide +kernel

/-- The pass test of 2.8: p1 from 1,200,396 to 1,200,476 with an unmatched record is a miss. -/
theorem test_missed_pass : (⟨1200000, .any, 9, 400⟩ : Checkpoint).passed 8000 1200396 1200476 = true
    ∧ (⟨1200000, .any, 9, 400⟩ : Checkpoint).passed 8000 1200316 1200396 = false := by decide +kernel

/-- PREPARING with all preconditions met but the loop link LOST: the sample takes it to RELEASING (R83),
and that sample is supervised, v_sup taking v_creep (R121). -/
def loopLost : State :=
  { standing .preparing with
    links := { base.links with loopStation := { base.links.loopStation with up := false, due := none } }
    run := { (standing .preparing).run with record := some { upRecord with frozen := none } }
    chan :=
      ⟨{ ChannelRecord.afterReset with basePos := 1000000 },
        { ChannelRecord.afterReset with basePos := 1000000 }⟩
    prof := locked.prof }

theorem test_sample_releases : ends (.sampleTimerExpiry 10000) loopLost (fun t =>
    decide (t.run.state = .releasing) && decide (t.prof.vSup = t.settings.vCreep)
      && decide (t.prof.vRef = 0) && t.brk.refEnable) = true := by decide +kernel

/-! ## Witnesses: steps, commands and reset -/

theorem witness_StepRunsFrontCommand :
    ({ base with pending := [.suspend 0 [7]] } : State).pending = .suspend 0 [7] :: [] := rfl

theorem witness_EveryCommandCompletes : base.Quiet ∧ ({ base with held := true } : State).held = true
    ∧ Instr.suspend 0 [7] ≠ .reset ∧ ∀ dt, Instr.suspend 0 [7] ≠ .heldInReset dt :=
  ⟨⟨rfl, rfl⟩, rfl, by decide, by simp⟩

theorem witness_EachRecordHasItsCommands :
    changes (.heldInReset 5) base (·.held) = true
    ∧ changes (.inputLevelChange 5 [(9, 15000)]) base (·.inputs) = true
    ∧ changes (.encoderEdge 5 .main .up) base (·.chan.main.count) = true
    ∧ changes (.sampleTimerExpiry 10000) base (·.reck.sample) = true
    ∧ changes (.constantWriteComplete 0)
      { base with store := { lineStore with cycle := .constant .g 421 } } (·.store.consts) = true
    ∧ changes (.lockCycleComplete 0)
      { base with store := { lineStore with lock := false, cycle := .lock } } (·.store.lock) = true
    ∧ changes (.commitCycleComplete 0)
      { base with store := { lineStore with cycle := .commit OperatingSet.factory } }
      (·.store.active) = true
    ∧ changes (.commitEdit 0 [7]) { base with store := { lineStore with staging := some lineSet } }
      (·.store.mark) = true
    ∧ changes (.carState 0 .one [0, 0, 0, 0]) base (·.recs.car.one) = true
    ∧ changes (.loopState 0 [1, 0]) base (·.recs.loop) = true
    ∧ changes (.linkTimeout 50000 .drive) base (·.recs.drive) = true := by decide +kernel

theorem witness_ResetWithoutMark : State.reset.store.mark = false := rfl
theorem witness_ResetWithMark : base.store.mark = true := rfl

/-! ## Witnesses: the field interface -/

theorem witness_EncoderEdgeCounts : base.Ready := base_ready

theorem witness_InputLevelsFollowVoltages : base.held = false ∧ base.ShapeLaw
    ∧ (([(0, 15000), (1, 5000), (2, 5001), (3, 14999)] : List (Fin 32 × Nat)).map (·.1)).Nodup :=
  ⟨rfl, base_shape, by decide⟩

/-- The three ways slot 9 takes a level: a rise runs its count of 50 ms, a fall back to the output
idles the timer, and a fall with no count drives the output. -/
theorem witness_SlotTakesItsInput : base.held = false ∧ base.ShapeLaw
    ∧ (base.store.active.filter 9).source = .input 9
    ∧ base.slots[9]? = some ⟨false, false, none, false⟩ ∧ false = base.input 9
    ∧ levelOf 15000 (base.input 9) ≠ base.input 9
    ∧ ends (.inputLevelChange 0 [(9, 15000)]) base (fun t =>
      decide (t.slots[9]? = some ⟨false, true, some 50000, false⟩)
        && ends (.inputLevelChange 10 [(9, 5000)]) t (fun u =>
          decide (u.slots[9]? = some ⟨false, false, none, false⟩))
        && ends (.filterTimerExpiry 50000 [9]) t (fun u =>
          decide (u.slots[9]? = some ⟨true, true, none, true⟩)
            && ends (.inputLevelChange 0 [(9, 5000)]) u fun w =>
              decide (w.slots[9]? = some ⟨false, false, none, true⟩))) = true :=
  ⟨rfl, base_shape, by decide +kernel⟩

/-- The line with its Reckoner UNREFERENCED. -/
def lost : State := { base with reck := Reckoner.afterReset, run := { base.run with standstill := false } }

theorem witness_BranchEdgeReferences : lost.held = false ∧ lost.ShapeLaw ∧ lost.reck.referenced = false
    ∧ 15000 ≤ 15000 ∧ lost.input 10 = false
    ∧ lost.store.active.checkpoints[2]? = some ⟨1405000, .east, 10, 300⟩ ∧ 2 < 24
    ∧ Branch.east.car = some .one
    ∧ ∀ i c', lost.store.active.checkpoints[i]? = some c' → c'.input = 10 → i = 2 :=
  ⟨rfl, by refine ⟨?_, ?_, ?_, ?_⟩ <;> decide, rfl, Nat.le_refl _, by decide, by decide, by decide, rfl,
    only (l := lineSet.checkpoints) (n := 10) (j := 2) (by decide)⟩

theorem witness_MatchedEdgeCorrects : atCheckpoint.held = false ∧ atCheckpoint.ShapeLaw
    ∧ atCheckpoint.reck.referenced = true ∧ atCheckpoint.reck.sample.referenced = true
    ∧ atCheckpoint.input 12 = false
    ∧ atCheckpoint.store.active.checkpoints[4]? = some ⟨1650000, .any, 12, 400⟩
    ∧ (∀ i c', atCheckpoint.store.active.checkpoints[i]? = some c' → c'.input = 12 → i = 4)
    ∧ (atCheckpoint.advance 6000).isCandidate ⟨1650000, .any, 12, 400⟩ .two = true
    ∧ (atCheckpoint.advance 6000).isCandidate ⟨1650000, .any, 12, 400⟩ .one = false
    ∧ atCheckpoint.reck.zone .two 4 ≠ .withinMatched :=
  ⟨rfl, by refine ⟨?_, ?_, ?_, ?_⟩ <;> decide, rfl, rfl, by decide, by decide,
    only (l := lineSet.checkpoints) (n := 12) (j := 4) (by decide),
    by decide +kernel, by decide +kernel, by decide⟩

/-- The cars with car 2 at the branch checkpoints. -/
def crossed : State :=
  { base with reck := { base.reck with sample := { base.reck.sample with p := ⟨20000, 1405300⟩ } } }

/-- The three faults of an edge that is not matched: at an ANY checkpoint with no car near, at the EAST
one with no car near, and at the EAST one with car 2 near, at the edge of its tolerance. -/
theorem witness_UnmatchedEdgeFaults : base.held = false ∧ base.reck.referenced = true
    ∧ base.reck.sample.referenced = true ∧ base.ShapeLaw ∧ base.input 8 = false
    ∧ (∀ i c', base.store.active.checkpoints[i]? = some c' → c'.input = 8 → i = 0)
    ∧ (∀ i c', base.store.active.checkpoints[i]? = some c' → c'.input = 10 → i = 2)
    ∧ crossed.ShapeLaw
    ∧ base.store.active.checkpoints[0]? = some ⟨300000, .any, 8, 400⟩
    ∧ ((base.advance 0).isCandidate ⟨300000, .any, 8, 400⟩ .one
      = (base.advance 0).isCandidate ⟨300000, .any, 8, 400⟩ .two)
    ∧ base.store.active.checkpoints[2]? = some ⟨1405000, .east, 10, 300⟩
    ∧ ((base.advance 0).isCandidate ⟨1405000, .east, 10, 300⟩ .one
      = (base.advance 0).isCandidate ⟨1405000, .east, 10, 300⟩ .two)
    ∧ (⟨1405000, .east, 10, 300⟩ : Checkpoint).near ((base.advance 0).edgePosition .two) = false
    ∧ ((crossed.advance 0).isCandidate ⟨1405000, .east, 10, 300⟩ .one
      = (crossed.advance 0).isCandidate ⟨1405000, .east, 10, 300⟩ .two)
    ∧ (⟨1405000, .east, 10, 300⟩ : Checkpoint).near ((crossed.advance 0).edgePosition .two) = true :=
  ⟨rfl, rfl, rfl, base_shape, by decide,
    only (l := lineSet.checkpoints) (n := 8) (j := 0) (by decide),
    only (l := lineSet.checkpoints) (n := 10) (j := 2) (by decide),
    by refine ⟨?_, ?_, ?_, ?_⟩ <;> decide, by decide +kernel⟩

/-! ## Witnesses: samples and supervision -/

theorem witness_SamplePublishesPosition : base.held = false ∧ base.periods.sample ≤ base.time + 10000 :=
  ⟨rfl, by decide⟩

theorem lineSet_range : lineSet.RangeLaw where
  segSlots := by decide
  cpSlots := by decide
  filterSlots := by decide
  segCount := by decide
  cpCount := by decide
  segs := by unfold within; decide +kernel
  cps := by unfold within; decide +kernel
  stops := by unfold within; intro x; cases x <;> decide
  settings := by
    intro i r h
    unfold within
    by_cases hi : i < 25
    · interval_cases i <;> simp_all [settingRange] <;> subst h <;> decide
    · obtain ⟨n, rfl⟩ : ∃ n, i = n + 25 := ⟨i - 25, by omega⟩
      exact absurd h (by simp [settingRange])
  filters := by decide +kernel

theorem base_range : base.RangeLaw where
  sets := by
    intro o h
    have : o = lineSet := by simpa [Store.sets, base, lineStore] using h
    rw [this]; exact lineSet_range
  consts := by
    intro n v h
    have h : lineStore.consts.get n = some v := by simpa [base, lineStore] using h
    cases n <;> cases h <;> (unfold within; decide)
  decel := by intro c h; exact absurd h (by simp [base, State.reset, Profile.afterReset])

/-- RUNNING, the channels standing where the cars are. -/
def midway : State :=
  { moving .running 1000000 8000 with
    chan :=
      ⟨{ ChannelRecord.afterReset with basePos := 1000000 },
        { ChannelRecord.afterReset with basePos := 1000000 }⟩ }

/-- That state with 1,200 counts of 100 µm in 10 ms on the main channel: 12,000 mm/s. -/
def racing : State :=
  { midway with
    chan :=
      ⟨{ midway.chan.main with
          count := 1200, edges := 1200, edgeTime := some 10000, refEdge := some 0 },
        midway.chan.alt⟩ }

/-- The state in which the sample 10 ms on is supervised. -/
def atSample (s : State) : State := (s.advance 10000).reckonSample.permit.controlSample

/-- v_sup of that sample (R121). -/
def supAt (c : State) : Int :=
  let creep := match c.distance with
    | some d => if c.settings.dF < d then c.settings.vCreep else 0
    | none => c.settings.vCreep
  max (max c.prof.vP creep) (max (c.prof.vSup - c.aRun * 10 / 1000) 0)

/-- A supervised sample keeps its v_sup; a rope at 12,000 mm/s trips both tests. -/
theorem witness_ReferenceIsSentAndBounded : base.held = false ∧ base.periods.sample ≤ base.time + 10000
    ∧ base.RangeLaw ∧ base.run.flavour ≠ some .creepLapse ∧ base.SupervisionLaw
    ∧ ({ base with run := { base.run with flavour := some .creepLapse } } : State).RangeLaw
    ∧ ends (.sampleTimerExpiry 10000) midway (fun t =>
      t.brk.refEnable && decide (0 < t.brk.refSpeed) && decide (t.brk.refSpeed = t.prof.vRef)) = true
    ∧ (atSample midway).run.state.speedSupervised = true
    ∧ (atSample midway).absV ≤ supAt (atSample midway) + max 200 (supAt (atSample midway) / 20)
    ∧ (atSample midway).absV ≤ (atSample midway).prof.vLocal * 115 / 100
    ∧ ends (.sampleTimerExpiry 10000) midway (fun t =>
      t.run.state.speedSupervised && decide (t.run.counter = (atSample midway).run.counter)
        && decide (0 < t.prof.vSup)) = true :=
  ⟨rfl, by decide, base_range, by decide, fun _ => ⟨rfl, rfl, rfl⟩,
    ⟨base_range.sets, base_range.consts, base_range.decel⟩, by decide +kernel⟩

theorem witness_ReferenceIsSentAndBounded_trips : racing.held = false
    ∧ racing.periods.sample ≤ racing.time + 10000 ∧ racing.prof.curve = false
    ∧ racing.prof.limit = false ∧ (atSample racing).run.state.speedSupervised = true
    ∧ supAt (atSample racing) + max 200 (supAt (atSample racing) / 20) < (atSample racing).absV
    ∧ (atSample racing).prof.vLocal * 115 / 100 < (atSample racing).absV
    ∧ ends (.sampleTimerExpiry 10000) racing (fun t =>
      decide (t.faults.map (·.kind) = [.overspeedCurve, .overspeedLimit])) = true := by decide +kernel

theorem witness_DecelerationIsBounded : (200 : Int) ≤ 200 ∧ (1500 : Int) ≤ 1500 ∧ (0 : Int) ≤ 0
    ∧ derate 200 10000 = 120 ∧ derate 1500 249 = 1500 := by decide +kernel

theorem witness_TargetSharesOrSplits : (0 : Int) ≤ 300 ∧ mag (600 - 0) ≤ 2 * 300
    ∧ 2 * 300 < mag (601 - 0) := by decide +kernel

theorem witness_LookupFindsSegment : lineSet.segments[0]? = some ⟨0, 2500, 1, .platform⟩
    ∧ lineSet.lookup 2846000 (-1) = 0 ∧ lineSet.lookup 2846000 0 = 0
    ∧ lineSet.lookup 2846000 59999 = 0 ∧ lineSet.lookup 2846000 60000 = 1
    ∧ lineSet.lookup 2846000 2846000 = 9 := by decide +kernel

/-- The line with a standstill timer due at 5 ms. -/
def slowing : State := { base with run := { base.run with standstill := false, standstillDue := some 5000 } }

/-- The main channel reads 5,000 mm/s at the next sample: 500 counts of 100 µm in 10 ms. -/
def fast : State :=
  { slowing with
    chan :=
      ⟨{ ChannelRecord.afterReset with
          count := 500, edges := 500, edgeTime := some 10000, refEdge := some 0 },
        ChannelRecord.afterReset⟩ }

theorem witness_StandstillFollowsItsTimer : slowing.Ready ∧ slowing.run.standstillDue = some 5000
    ∧ 5000 ≤ slowing.time + 5000 ∧ slowing.time + 5000 < slowing.periods.sample
    ∧ slowing.periods.sample ≤ slowing.time + 10000
    ∧ ends (.sampleTimerExpiry 10000) fast (fun t => decide (t.reck.sample.v = 5000)) = true
    ∧ ends (.sampleTimerExpiry 10000) slowing (fun t => decide (t.reck.sample.v = 0)) = true
    ∧ ({ slowing with run := { slowing.run with standstillHeld := true } } : State).run.standstillHeld
      = true :=
  ⟨⟨rfl, rfl, rfl⟩, rfl, by decide, by decide, by decide, by decide +kernel, by decide +kernel, rfl⟩

/-- Input 9 active and slot 9's timer due at 50 ms. -/
def filtering : State :=
  { base with
    inputs := base.inputs.set 9 true
    slots := base.slots.set 9 ⟨false, true, some 50000, false⟩ }

theorem witness_FilterTimerSetsOutput : filtering.held = false ∧ (9 : Fin 14) ∈ [(9 : Fin 14)]
    ∧ filtering.slots[9]? = some ⟨false, true, some 50000, false⟩ ∧ 50000 ≤ filtering.time + 50000
    ∧ (filtering.store.active.filter 9).source = .input 9 ∧ true = filtering.input 9 :=
  ⟨rfl, by decide, by decide, by decide, by decide +kernel, by decide⟩

/-- The line on a feedback source with the stall conditions, slots 0 and 1, and a list of entries. -/
def feedback (ch : Channel) (main alt : Bool) (s0 s1 : Slot) (fs : List FaultEntry) : State :=
  { base with
    reck := { base.reck with source := ch, mainStall := main, altStall := alt }
    prof := { base.prof with source := ch }
    slots := (base.slots.set 0 s0).set 1 s1
    faults := fs }

/-- A slot whose output sets when its timer expires at 50 ms. -/
def setting : Slot := ⟨false, true, some 50000, false⟩

/-- A slot whose output clears when its timer expires at 50 ms. -/
def clearing : Slot := ⟨true, false, some 50000, false⟩

/-- The FEEDBACK_FAILOVER entry, reported and not present. -/
def failedOver : FaultEntry := entry .feedbackFailover .notice false true

/-- The five cases of the source: failover, both stalled, ALT stalled as well, and the two returns. -/
theorem witness_FilterTimerSetsOutput_source :
    (let s := feedback .main true false setting Slot.afterReset [];
      s.takeSources = s ∧ s.held = false ∧ s.reck.referenced = true
        ∧ ((s.advance 50000).expireSlots [0]).out 0 = true
        ∧ ((s.advance 50000).expireSlots [0]).out 1 = false
        ∧ ends (.filterTimerExpiry 50000 [0]) s (fun t => decide (t.reck.source = .alt)) = true)
    ∧ (let s := feedback .main true true setting setting [];
      s.takeSources = s ∧ ((s.advance 50000).expireSlots [0, 1]).out 0 = true
        ∧ ((s.advance 50000).expireSlots [0, 1]).out 1 = true ∧ s.conds = s.holding
        ∧ s.feedbackLost = false)
    ∧ (let s := feedback .alt true true ⟨true, true, none, false⟩ setting [failedOver];
      s.takeSources = s
        ∧ ((s.advance 50000).expireSlots [1]).out 1 = true ∧ s.conds = s.holding
        ∧ s.feedbackLost = false ∧ failedOver ∈ s.faults)
    ∧ (let s := feedback .alt false false clearing Slot.afterReset [];
      s.takeSources = s ∧ s.run.state = .parked
        ∧ ((s.advance 50000).expireSlots [0]).out 0 = false
        ∧ (s.store.active.filter 0).source ≠ .disagree
        ∧ ends (.filterTimerExpiry 50000 [0]) s (fun t => decide (t.reck.source = .main)) = true)
    ∧ (let s := feedback .alt false false Slot.afterReset Slot.afterReset [failedOver];
      s.takeSources = s ∧ s.fault .feedbackFailover = some failedOver
        ∧ s.out 0 = false
        ∧ ends (.ackFault 0 [7, 9]) s (fun t => decide (t.reck.source = .main)) = true) := by
  decide +kernel

/-- The states of the two returns keep the laws and hear the console. -/
theorem witness_FilterTimerSetsOutput_returns :
    (feedback .alt false false clearing Slot.afterReset []).RunLaws
    ∧ (feedback .alt false false Slot.afterReset Slot.afterReset [failedOver]).Quiet
    ∧ (feedback .alt false false Slot.afterReset Slot.afterReset [failedOver]).Hears .console :=
  ⟨runLaws (by decide +kernel), ⟨rfl, rfl⟩, ⟨rfl, rfl, by decide⟩⟩

/-! ## Witnesses: the run's timers and the brakes -/

/-- The line in PREPARING, its prepare timer due at 15 s. -/
def preparing : State :=
  { standing .preparing with
    run :=
      { (standing .preparing).run with
        prepareDue := some 15000000, record := some { upRecord with frozen := none } }
    prof := locked.prof
    recs := base.recs }

theorem witness_PrepareTimeoutAbandonsRun : preparing.held = false
    ∧ preparing.run.prepareDue = some 15000000 ∧ preparing.run.state = .preparing
    ∧ preparing.AtRest ∧ (preparing.queue.all fun e => upRecord.served.contains e.id) = true
    ∧ preparing.shuttle.active = false ∧ preparing.FaultLaw ∧ preparing.stopDemanded = false
    ∧ ends (.prepareTimerExpiry 15000000) preparing (fun t =>
      decide (t.run.state = .parked) && decide (t.faults.map (·.kind) = [.prepareTimeout])) = true :=
  ⟨rfl, rfl, rfl, atRest (by decide +kernel), by decide, rfl,
    faultLaw rfl (by decide) (by decide), by decide, by decide +kernel⟩

/-- DWELL at UPPER with a door not locked, at LOOP with all locked, and at LOWER with both locked. -/
theorem witness_DwellTimerEndsDwell : (dwelling base .upper).AtRest ∧ (dwelling locked .loop).AtRest
    ∧ (dwelling base .upper).held = false ∧ (dwelling base .upper).run.dwellDue = some 5000000
    ∧ (dwelling base .upper).run.state = .dwell ∧ (dwelling base .upper).stopDemanded = false
    ∧ base.recs.car.one.doors ≠ .closedLocked ∧ locked.recs.car.one.doors = .closedLocked
    ∧ locked.recs.car.two.doors = .closedLocked ∧ locked.recs.loop.east = .closedLocked
    ∧ locked.recs.loop.west = .closedLocked ∧ locked.queue = [] ∧ locked.shuttle.active = false
    ∧ ends (.dwellTimerExpiry 5000000) (dwelling locked .lower) (fun t =>
      decide (t.run.state = .parked)) = true :=
  ⟨atRest (by decide +kernel), atRest (by decide +kernel), by decide +kernel⟩

/-- DWELL at LOOP with a gate open, and with the loop link LOST. -/
def gateOpen : State :=
  { dwelling locked .loop with recs := { locked.recs with loop := ⟨.opened, .closedLocked⟩ } }

def dwellLost : State :=
  { dwelling locked .loop with
    recs := { locked.recs with loop := ⟨.unknown, .unknown⟩ }
    conds := [.linkLostLoop]
    links := { base.links with loopStation := { base.links.loopStation with up := false, due := none } } }

theorem witness_DwellTimerEndsDwell_gates : gateOpen.AtRest ∧ dwellLost.AtRest
    ∧ gateOpen.linkUp .loopStation = true ∧ gateOpen.recs.loop.east ≠ .closedLocked
    ∧ dwellLost.linkUp .loopStation = false ∧ dwellLost.stopDemanded = false
    ∧ ends (.dwellTimerExpiry 5000000) gateOpen (fun t => decide (t.run.state = .dwell)) = true
    ∧ ends (.dwellTimerExpiry 5000000) dwellLost (fun t => decide (t.run.state = .parked)) = true :=
  ⟨atRest (by decide +kernel), atRest (by decide +kernel), by decide +kernel⟩

theorem witness_CreepLapseSettles : (creeping .running).held = false
    ∧ (creeping .running).run.creepDue = some 5000 ∧ 5000 ≤ (creeping .running).time + 5000
    ∧ (creeping .running).AtRest ∧ (creeping .finalApproach).AtRest
    ∧ (creeping .running).run.standstill = false
    ∧ (creeping .running).brk.service.state = .released ∧ (creeping .running).stopDemanded = false :=
  ⟨rfl, rfl, by decide, atRest (by decide +kernel), atRest (by decide +kernel), rfl, rfl, by decide⟩

/-- The line in RELEASING with both release deadlines due at 800 ms. -/
def releasing : State :=
  { moving .releasing 20472 0 with
    prof := { (moving .releasing 20472 0).prof with vRef := 0 }
    brk :=
      { BrakeUnit.afterReset with
        enable := true
        service := ⟨.releasing, some 800000, false⟩, emergency := ⟨.releasing, some 800000, false⟩ } }

/-- The line in SETTLING with the service brake's apply deadline due at 500 ms. -/
def applying : State :=
  { moving .settling 1000000 0 with
    brk :=
      { BrakeUnit.afterReset with
        enable := true, service := ⟨.applying, some 500000, false⟩ } }

theorem witness_BrakeDeadlinesReport : releasing.held = false
    ∧ ((releasing.advance 800000).dueBrakes .releasing) = ⟨true, true⟩ ∧ releasing.RunLaws
    ∧ applying.held = false ∧ applying.RunLaws ∧ applying.FaultLaw
    ∧ ((applying.advance 500000).dueBrakes .applying) = ⟨true, false⟩
    ∧ ends (.brakeReleaseDeadlineExpiry 800000) releasing (fun t =>
      decide (t.run.state = .faultStopping)) = true :=
  ⟨rfl, by decide +kernel, runLaws (by decide +kernel), rfl, runLaws (by decide +kernel),
    faultLaw rfl (by decide) (by decide), by decide +kernel, by decide +kernel⟩

/-- A fault stop of class QUICK_STOP at 8,000 mm/s, both brakes open, its quick-stop timer due at 3 s. -/
def stopping : State :=
  { moving .faultStopping 1000000 8000 with
    queue := []
    slots := ((base.slots.set 3 ⟨true, true, none, false⟩).set 4 ⟨true, true, none, false⟩)
    store :=
      { lineStore with
        active :=
          { lineSet with
            filters :=
              (lineSet.filters.set 3 ⟨.alwaysTrue, false, 0, 0, false⟩).set 4
                ⟨.alwaysTrue, false, 0, 0, false⟩ } }
    run :=
      { (moving .faultStopping 1000000 8000).run with
        record := none, stopClass := some .quickStop }
    faults := [entry .overspeedCurve .quickStop false false]
    brk := { (moving .faultStopping 1000000 8000).brk with quickDue := some 3000000 } }

/-- That fault stop with an effectiveness check of both brakes due at 5 ms: it fails at 8,000 mm/s
from 8,299 mm/s, and passes from 8,300. -/
def checking (v0 : Int) : State :=
  { stopping with
    brk := { stopping.brk with checks := [⟨⟨true, true⟩, v0, 5000, false⟩] } }

theorem stopping_faults : stopping.FaultLaw := by
  refine ⟨?_, by decide, by decide⟩
  intro o h
  have : o = lineSet ∨ o = stopping.store.active := by
    simpa [Store.sets, stopping, lineStore] using h
  rcases this with rfl | rfl
  · exact lineSet_classes
  · exact lineSet_classes

/-- FAULT_HELD with that check. -/
def heldCheck (v0 : Int) : State :=
  { faulted [entry .overspeedCurve .quickStop false false] with
    reck := stopping.reck
    brk := { BrakeUnit.afterReset with checks := [⟨⟨true, true⟩, v0, 5000, false⟩] } }

theorem witness_EffectivenessCheckDecides : (checking 8299).held = false
    ∧ (⟨⟨true, true⟩, 8299, 5000, false⟩ : Check) ∈ (checking 8299).brk.checks
    ∧ (checking 8299).RunLaws ∧ (checking 8299).FaultLaw
    ∧ (checking 8299).time + 5000 < (checking 8299).periods.sample
    ∧ max 20 (8299 - (checking 8299).settings.aMin) < (checking 8299).absV
    ∧ (∀ c ∈ (heldCheck 8300).brk.checks, c.due ≤ (heldCheck 8300).time + 5000 →
      (heldCheck 8300).absV ≤ max 20 (c.v0 - (heldCheck 8300).settings.aMin))
    ∧ (heldCheck 8300).AtRest ∧ (heldCheck 8300).run.state = .faultHeld
    ∧ (heldCheck 8300).stopDemanded = true ∧ (heldCheck 8300).Quiet
    ∧ (heldCheck 8300).periods.sample ≤ (heldCheck 8300).time + 10000 :=
  ⟨rfl, by decide +kernel, runLaws (by decide +kernel),
    ⟨stopping_faults.1, stopping_faults.2⟩, by decide +kernel, by decide +kernel, by decide +kernel,
    atRest (by decide +kernel), rfl, by decide, ⟨rfl, rfl⟩, by decide⟩

/-- In FAULT_STOPPING a check that passes leaves the faults and the rail brake demand. -/
theorem witness_EffectivenessCheckDecides_passes : (checking 8300).AtRest ∧ (checking 8300).Quiet
    ∧ (checking 8300).run.state = .faultStopping ∧ (checking 8300).run.standstill = false
    ∧ (checking 8300).brk.service.done = false
    ∧ (checking 8300).run.stopClass = some .quickStop
    ∧ (checking 8300).settings.vCreep < (checking 8300).absV
    ∧ (∀ c ∈ (checking 8300).brk.checks, c.due ≤ (checking 8300).time + 5000 →
      (checking 8300).absV ≤ max 20 (c.v0 - (checking 8300).settings.aMin)) :=
  ⟨atRest (by decide +kernel), ⟨rfl, rfl⟩, by decide +kernel⟩

theorem witness_QuickStopTimerApplies : stopping.held = false ∧ stopping.RunLaws
    ∧ stopping.stopDemanded = true ∧ stopping.brk.quickDue = some 3000000
    ∧ 3000000 ≤ stopping.time + 3000000 ∧ stopping.AtRest
    ∧ stopping.brk.service.state = .released ∧ stopping.brk.emergency.state = .released
    ∧ stopping.brk.checks = [] ∧ stopping.run.state = .faultStopping
    ∧ stopping.run.stopClass = some .quickStop ∧ stopping.settings.vCreep < stopping.absV
    ∧ stopping.serviceOpen = true ∧ stopping.emergencyOpen = true ∧ stopping.brk.enable = true :=
  ⟨rfl, runLaws (by decide +kernel), by decide, rfl, by decide, atRest (by decide +kernel),
    by decide +kernel⟩

/-! ## Witnesses: links and messages -/

theorem witness_LinkTimeoutLosesLink : ∀ p : Party, ∃ d, (base.link p).due = some d
    ∧ d ≤ base.time + 1000000 ∧ base.linkUp p = true ∧ base.conds = base.holding := by
  intro p
  cases p
  · exact ⟨1000000, by decide +kernel⟩
  · exact ⟨50000, by decide +kernel⟩
  · exact ⟨600000, by decide +kernel⟩
  · exact ⟨600000, by decide +kernel⟩
  · exact ⟨600000, by decide +kernel⟩

/-- The line with 32 REPLY frames waiting on every link. -/
def full : State :=
  let l := { base.links.console with
    sending := some ⟨0x6F, [0x12, 7, 0, 0]⟩, waiting := List.replicate 32 ⟨0x6F, [0x12, 7, 0, 0]⟩ }
  { base with links := ⟨l, l, l, l, l⟩ }

theorem base_hears (p : Party) : base.Hears p := by cases p <;> exact ⟨rfl, rfl, by decide⟩

/-- The line with every receiver in HUNT. -/
def hunting : State := { base with links := received .hunt base.links }

theorem witness_CharactersMoveReceiver : hunting.Ready ∧ (hunting.link .console).rx = .hunt
    ∧ (hunting.link .console).blocked = false ∧ full.Ready ∧ (full.link .console).blocked = true
    ∧ base.Ready ∧ base.Listens .console ∧ ([7] : List Byte).length ≤ 192
    ∧ 0 < (frameChars 0x12 [7] 0).length ∧ 4 < (frameChars 0x12 [7] 0).length
    ∧ 192 < (193 : Byte).toNat ∧ (0x12 : Byte) ≠ 0x5A ∧ (193 : Byte) ≠ 0x5A
    ∧ (0x5A : Byte) ∉ frameChars 0x12 [7] 0 :=
  ⟨⟨rfl, rfl, rfl⟩, rfl, by decide, ⟨rfl, rfl, rfl⟩, by decide, base_ready, (base_hears _).2, by decide⟩

/-- A frame whose SYNC was lost is ignored, and one whose SYNC was taken is answered (R177). -/
theorem test_sync_first : ends (.resume 0 [7]) hunting (fun t =>
      decide ((t.link .console).sending = none)) = true
    ∧ ends (.frameStartSync 0 .console) hunting (fun s => ends (.resume 0 [7]) s fun t =>
      decide ((t.link .console).sending.isSome) && decide ((t.link .console).rx = .hunt)) = true := by
  decide +kernel

/-- In HUNT a 0x5A inside a lost frame starts a frame: here a whole SUSPEND lies in the payload (R177). -/
theorem test_sync_inside : ends (.crcFailedFrame 0 .console 0x10
      ((Frame.wire ⟨0x12, [7]⟩)) 0) hunting (fun t =>
    decide ((t.link .console).sending = some ⟨0x6F, [0x12, 7, 0x12, 0]⟩)) = true := by decide +kernel

/-- A frame whose SYNC came while 32 REPLY frames waited is lost, and the next one is taken (R181). -/
theorem test_full_at_sync : ends (.frameStartSync 0 .console)
      { full with links := received .hunt full.links } (fun s =>
    ends (.transmitComplete 0 .console) s fun s => ends (.suspend 0 [7]) s fun s =>
      decide ((s.link .console).waiting.length = 31)
        && ends (.frameStartSync 0 .console) s fun s => ends (.suspend 0 [7]) s fun s =>
          decide ((s.link .console).waiting.length = 32)) = true := by decide +kernel

theorem witness_LinkUnitRefusesFrames : base.Ready ∧ base.Hears .drive ∧ base.Listens .drive
    ∧ ([7] : List Byte).length ≤ 192
    ∧ (0 : BitVec 16) ≠ crc16 (0x12 :: BitVec.ofNat 8 ([7] : List Byte).length :: [7])
    ∧ (∀ t : MsgType, t.code ≠ 0x30) ∧ MsgType.run.code = 0x10 ∧ MsgType.run.permitted .drive = false :=
  ⟨base_ready, base_hears _, (base_hears _).2, by decide, by decide +kernel,
    fun t => by cases t <;> decide, rfl, rfl⟩

theorem witness_FullTransmitterTakesNoFrame : full.Ready ∧ ∀ p, (full.link p).blocked = true :=
  ⟨⟨rfl, rfl, rfl⟩, fun p => by cases p <;> decide⟩

/-- The replacement at its boundaries: an older STATUS first, in the middle and last among the waiting. -/
theorem witness_TransmitterKeepsOrder : full.Ready
    ∧ (full.link .drive).sending = some ⟨0x6F, [0x12, 7, 0, 0]⟩ ∧ base.Ready
    ∧ (base.link .drive).sending = none
    ∧ (∀ h ∈ (full.link .drive).waiting, h.type ≠ MsgType.status.code) ∧ MsgType.status ≠ .reply
    ∧ (⟨0x60, [1]⟩ : Frame).type = MsgType.status.code
    ∧ (∀ h ∈ ([⟨0x6F, [0]⟩, ⟨0x61, [0]⟩] : List Frame), h.type ≠ MsgType.status.code)
    ∧ (({ full.link .drive with waiting := [⟨0x6F, [0]⟩, ⟨0x60, [1]⟩, ⟨0x60, [2]⟩, ⟨0x61, [0]⟩] } : Link).hand
      .status [⟨0x60, [3]⟩, ⟨0x60, [4]⟩]).waiting
      = [⟨0x6F, [0]⟩, ⟨0x60, [3]⟩, ⟨0x60, [4]⟩, ⟨0x61, [0]⟩] :=
  ⟨⟨rfl, rfl, rfl⟩, rfl, base_ready, rfl, by decide, by decide, rfl, by decide, by decide⟩

theorem witness_StatusReportsState : base.Ready ∧ base.periods.status ≤ base.time + 100000
    ∧ base.QueueLaw ∧ base.FaultLaw :=
  ⟨base_ready, by decide, ⟨by decide, by decide⟩, faultLaw rfl (by decide) (by decide)⟩

theorem witness_PeriodsSendCommands : base.Ready ∧ (∀ k, base.periods.car.get k ≤ base.time + 100000)
    ∧ base.periods.loop ≤ base.time + 100000 := ⟨base_ready, fun k => by cases k <;> decide, by decide⟩

theorem witness_StateMessagesSetRecords : base.held = false ∧ (∀ p, base.Listens p) :=
  ⟨rfl, fun p => (base_hears p).2⟩

theorem witness_WrongLengthIsNotDelivered : base.Ready ∧ (∀ p, base.Hears p)
    ∧ ([] : List Byte).length ≤ 192 ∧ (List.replicate 192 (0 : Byte)).length ≤ 192
    ∧ ([] : List Byte).length ≠ 1 ∧ MsgType.callLoop.permitted .car1 = true
    ∧ ∀ item, ItemClass.ofCode ((([7, 4, 0, 1, 0] : List Byte).getD 1 0).toNat) = some item →
      ([7, 4, 0, 1, 0] : List Byte).length ≠ 4 + item.valueLen :=
  ⟨base_ready, base_hears, by decide, by decide +kernel, by decide, rfl, fun item h => by
    have : item = .setting := by simpa [ItemClass.ofCode] using h.symm
    subst this; decide⟩

/-! ## Witnesses: run requests -/

/-- The line with six entries queued. -/
def sixQueued : State :=
  { base with
    queue :=
      [upEntry, ⟨⟨.console, .stop, .lower⟩, .both, false⟩, ⟨⟨.console, .stop, .loop⟩, .both, false⟩,
        ⟨⟨.console, .through, .upper⟩, .both, false⟩, ⟨⟨.console, .through, .lower⟩, .both, false⟩,
        ⟨⟨.car1, .stop, .loop⟩, .east, false⟩] }

/-- Each check of a run request, with the checks before it passed. -/
theorem witness_RunRequestIsChecked :
    base.Ready ∧ base.Hears .console ∧ base.Hears .car2 ∧ MsgType.callLoop.permitted .car2 = true
    ∧ runRefusal { base with store := { lineStore with lock := false } } true false
      = some .notCommissioned
    ∧ runRefusal lost true false = some .notReferenced
    ∧ runRefusal { base with store := { lineStore with staging := some lineSet } } true false
      = some .editOpen
    ∧ runRefusal { base with store := { lineStore with cycle := .lock } } true false = some .busy
    ∧ runRefusal (faulted []) true false = some .faultActive
    ∧ runRefusal base (runFields 2 2).isSome false = some .badValue
    ∧ runRefusal base (callFields .loopStation 4).isSome false = some .badValue
    ∧ runRefusal sixQueued (callFields .car2 0).isSome
      (sixQueued.queue.any fun e => decide (some e.id = (callFields .car2 0).map (·.1)))
      = some .queueFull :=
  ⟨base_ready, base_hears _, base_hears _, rfl, by decide +kernel⟩

theorem moving_hears (p : Party) : (moving .running 1300000 8000).Hears p := by
  cases p <;> exact ⟨rfl, rfl, by decide⟩

/-- A RUN that joins and one that is added; a CALL_LOOP whose merge test is not made, past the loop, and
one whose test is made and fails, close before it; and sides EAST and WEST joined. -/
theorem witness_RunRequestIsQueued : (moving .running 1300000 8000).Ready
    ∧ (moving .running 1300000 8000).Hears .console
    ∧ runFields 1 3 = some ⟨.console, .stop, .upper⟩ ∧ runFields 2 3 = some ⟨.console, .through, .upper⟩
    ∧ (moving .running 1300000 8000).queued ⟨.console, .stop, .upper⟩ = true
    ∧ (moving .running 1300000 8000).queued ⟨.console, .through, .upper⟩ = false
    ∧ runRefusal (moving .running 1300000 8000) true true = none
    ∧ runRefusal (moving .running 1300000 8000) true false = none
    ∧ (moving .running 1300000 8000).run.state ≠ .parked
    ∧ (moving .running 1300000 8000).mergeTested .upper = false
    ∧ MsgType.callLoop.permitted .loopStation = true
    ∧ callFields .loopStation 2 = some (⟨.loopStation, .stop, .loop⟩, .west)
    ∧ (moving .running 1600000 8000).mergeTested .loop = false
    ∧ (moving .running 1400000 8000).mergeTested .loop = true
    ∧ isqrt (2 * (moving .running 1400000 8000).aRun * max 0
        (mag ((moving .running 1400000 8000).starOf .loop - 1400000) - 1000))
      < (moving .running 1400000 8000).absV
    ∧ ends (.callLoop 0 .loopStation [7, 2])
      { moving .running 1400000 8000 with
        queue := [upEntry, ⟨⟨.loopStation, .stop, .loop⟩, .east, false⟩] }
      (fun t => decide (t.queue.map (·.side) = [.both, .both])) = true :=
  ⟨⟨rfl, rfl, rfl⟩, moving_hears _, by decide +kernel⟩

/-- The merge of 4.9: at s = 1,300,000 and 8,000 mm/s with a_run 729. -/
theorem witness_LoopCallMerges : (moving .running 1300000 8000).Ready
    ∧ (moving .running 1300000 8000).Hears .car2 ∧ (moving .running 1300000 8000).Hears .loopStation
    ∧ (moving .running 1300000 8000).Hears .console
    ∧ MsgType.callLoop.permitted .car2 = true
    ∧ callFields .car2 0 = some (⟨.car2, .stop, .loop⟩, .west)
    ∧ callFields .loopStation 3 = some (⟨.loopStation, .stop, .loop⟩, .both)
    ∧ (∀ c, runRefusal (moving .running 1300000 8000) true
      ((moving .running 1300000 8000).queued ⟨c, .stop, .loop⟩) = none)
    ∧ (moving .running 1300000 8000).run.record = some upRecord
    ∧ (moving .running 1300000 8000).linkUp .loopStation = true
    ∧ 0 < ((moving .running 1300000 8000).starOf .loop - 1300000) * Dir.up.sign
    ∧ (moving .running 1300000 8000).absV ≤ isqrt (2 * (moving .running 1300000 8000).aRun
      * max 0 (mag ((moving .running 1300000 8000).starOf .loop - 1300000) - 1000))
    ∧ ends (.run 0 [7, 1, 2]) (moving .running 1300000 8000) (fun t =>
      decide ((t.link .console).sending = some (replyFrame 0x10 7 { code := .merged }))) = true
    ∧ ends (.callLoop 0 .loopStation [7, 1]) (moving .running 1300000 8000) (fun t =>
      decide ((t.link .loopStation).waiting
        = [replyFrame 0x18 7 { code := .merged }, ⟨0x62, [0, 0, 1]⟩])) = true :=
  ⟨⟨rfl, rfl, rfl⟩, moving_hears _, moving_hears _, moving_hears _, by decide +kernel,
    by decide +kernel, by decide +kernel, fun c => by cases c <;> decide +kernel, by decide +kernel⟩

theorem witness_RunRequestStartsRun : base.held = false ∧ base.Hears .console ∧ base.AtRest
    ∧ base.run.state = .parked ∧ base.queue = [] ∧ base.stopDemanded = false
    ∧ base.store.commissioning = .locked ∧ base.reck.referenced = true ∧ base.store.staging = none
    ∧ base.store.cycle = .idle ∧ runStop 3 = some .upper ∧ base.linkUp .loopStation = true
    ∧ base.recs.car.one.doors ≠ .closedLocked ∧ base.standAt .upper = false
    ∧ ends (.run 0 [7, 1, 3]) base (fun t => decide (t.run.state = .preparing)) = true :=
  ⟨rfl, base_hears _, atRest (by decide +kernel), by decide +kernel⟩

/-! ## Witnesses: cancels, suspend and resume, creep and shuttle -/

theorem witness_CancelRemovesConsoleCalls : base.Ready ∧ base.Hears .console ∧ runStop 4 = none
    ∧ runStop 1 = some .lower ∧ base.run.state = .parked ∧ (moving .running 1300000 8000).Ready
    ∧ (moving .running 1300000 8000).Hears .console
    ∧ (moving .running 1300000 8000).run.state ≠ .parked :=
  ⟨base_ready, base_hears _, rfl, rfl, rfl, ⟨rfl, rfl, rfl⟩, moving_hears _, by decide⟩

theorem standing_hears (p : Party) : (standing .suspended).Hears p := by
  cases p <;> exact ⟨rfl, rfl, by decide⟩

/-- The cars SUSPENDED, their one call left at its stop. -/
def suspendedLeft : State := { standing .suspended with queue := [{ upEntry with left := true }] }

theorem witness_CancelRunParks : (standing .suspended).Ready ∧ (standing .suspended).Hears .console
    ∧ (4 : Byte) ≠ 1 ∧ (4 : Byte) ≠ 2 ∧ (4 : Byte) ≠ 3 ∧ base.run.state ≠ .suspended
    ∧ suspendedLeft.Hears .console ∧ suspendedLeft.AtRest ∧ suspendedLeft.run.state = .suspended
    ∧ suspendedLeft.oldestEligible = none ∧ suspendedLeft.shuttle.active = false :=
  ⟨⟨rfl, rfl, rfl⟩, standing_hears _, by decide, by decide, by decide, by decide, standing_hears _,
    atRest (by decide +kernel), rfl, by decide, rfl⟩

theorem witness_SuspendAndResume : (moving .running 1300000 8000).Ready
    ∧ (moving .running 1300000 8000).run.record = some upRecord ∧ upRecord.mode ≠ .creep
    ∧ (creeping .running).Ready ∧ (creeping .running).run.record.map (·.mode) = some .creep
    ∧ (moving .finalApproach 2825000 300).run.state = .finalApproach ∧ base.run.state ≠ .running
    ∧ (standing .suspended).Ready ∧ (standing .suspended).Hears .console
    ∧ (standing .suspended).AtRest ∧ (standing .suspended).ClearToMove
    ∧ ¬ ((standing .suspended).serviceOpen = true ∧ (standing .suspended).emergencyOpen = true)
    ∧ (standing .suspended).brk.service.state = .applied
    ∧ (standing .suspended).brk.emergency.state = .applied ∧ base.run.state ≠ .suspended :=
  ⟨⟨rfl, rfl, rfl⟩, rfl, by decide, ⟨rfl, rfl, rfl⟩, rfl, rfl, by decide, ⟨rfl, rfl, rfl⟩,
    standing_hears _, atRest (by decide +kernel),
    ⟨fun k => by cases k <;> decide, fun _ => by decide, rfl, by decide, ⟨rfl, rfl⟩⟩, by decide, rfl, rfl,
    by decide⟩

/-- Each check of a CREEP, the refresh and the refusals of its last check. -/
theorem witness_CreepIsChecked :
    creepCheck State.reset 1 = some .notCommissioned
    ∧ creepCheck { base with store := { lineStore with staging := some lineSet } } 1 = some .editOpen
    ∧ creepCheck { base with store := { lineStore with cycle := .lock } } 1 = some .busy
    ∧ creepCheck (faulted []) 1 = some .faultActive ∧ creepCheck base 3 = some .badValue
    ∧ creepCheck (creeping .running) 1 = none ∧ creepDirection 1 = some .up
    ∧ creepCheck (creeping .running) 2 = none ∧ creepDirection 2 = some .down
    ∧ (creeping .running).run.record.map (fun r => (r.mode, r.dir)) = some (.creep, .up)
    ∧ (creeping .running).run.state = .running
    ∧ creepCheck base 2 = none ∧ base.run.state = .parked
    ∧ (Stop.all.all fun x =>
      decide ((base.starOf x - base.reck.sample.s) * Dir.down.sign ≤ base.window x)) = true
    ∧ sixQueued.queue ≠ [] ∧ creepCheck (standing .suspended) 1 = none
    ∧ (standing .suspended).run.state ≠ .parked := by decide +kernel

/-- The cars stand on the target distance of LOWER. -/
def onLower : State :=
  { base with reck := { base.reck with sample := { base.reck.sample with s := 20921 } } }

/-- A creep UP from LOWER targets LOOP, and an UNREFERENCED one has no target. -/
theorem witness_CreepStartsRun : onLower.held = false ∧ onLower.Hears .console ∧ onLower.AtRest ∧ lost.AtRest
    ∧ lost.Hears .console ∧ creepCheck onLower 1 = none ∧ creepCheck lost 1 = none
    ∧ creepDirection 1 = some .up ∧ onLower.run.state = .parked ∧ onLower.run.record = none
    ∧ onLower.queue = [] ∧ onLower.shuttle.active = false ∧ onLower.recs.car.one.doors ≠ .closedLocked
    ∧ onLower.window .loop < (onLower.starOf .loop - onLower.reck.sample.s) * Dir.up.sign
    ∧ ends (.creep 0 [7, 1]) onLower (fun t =>
      decide (t.run.record.map (·.target) = some (some .loop))) = true
    ∧ ends (.creep 0 [7, 1]) lost (fun t =>
      decide (t.run.record.map (·.target) = some none)) = true :=
  ⟨rfl, ⟨rfl, rfl, by decide⟩, atRest (by decide +kernel), atRest (by decide +kernel),
    ⟨rfl, rfl, by decide⟩, by decide +kernel⟩

/-- Parked at LOWER, the shuttle goes UP: to LOOP under the policy ALWAYS, to UPPER under ON_CALL. -/
theorem witness_ShuttleRequestsSetRecord : base.Ready ∧ base.Hears .console ∧ base.AtRest
    ∧ runRefusal (faulted []) true true = some .faultActive ∧ runRefusal base false true = some .badValue
    ∧ runRefusal base true true = none ∧ base.run.state = .parked
    ∧ runRefusal (moving .running 1300000 8000) true true = none
    ∧ (moving .running 1300000 8000).run.state ≠ .parked
    ∧ ends (.shuttleStart 0 [7, 1, 2, 89]) (moving .running 1300000 8000) (fun t =>
      decide (t.shuttle = ⟨true, .always, 600, .down⟩)) = true
    ∧ (base.store.active.classOf .stopOutsideWindow).rank = 0 ∧ base.stopDemanded = false
    ∧ base.queue = [] ∧ base.recs.car.one.doors ≠ .closedLocked
    ∧ base.shuttle.lastDir.opposite = .up ∧ base.linkUp .loopStation = true
    ∧ base.window .loop < (base.starOf .loop - base.reck.sample.s) * Dir.up.sign
    ∧ base.standAt .loop = false ∧ base.standAt .upper = false
    ∧ ends (.shuttleStart 0 [7, 1, 2, 89]) base (fun t =>
      decide (t.run.record.map (·.target) = some (some .loop)) && t.shuttle.active) = true
    ∧ ends (.shuttleStart 0 [7, 2, 0, 30]) base (fun t =>
      decide (t.run.record.map (·.target) = some (some .upper)) && t.shuttle.active) = true :=
  ⟨base_ready, base_hears _, atRest (by decide +kernel), by decide +kernel⟩

/-! ## Witnesses: acknowledgement and the store -/

/-- Two entries of class SERVICE_STOP or higher, reported and no longer present. -/
def twoFaults : State :=
  faulted [entry .overspeedCurve .quickStop false true, entry .brakeReleaseTimeout .serviceStop false true]

/-- A notice that is reported and not present. -/
def notice : FaultEntry := entry .stopOutsideWindow .notice false true

/-- DWELL at LOWER with a notice, its dwell timer running. -/
def dwellNotice : State := { dwelling base .lower with faults := [notice] }

/-- A fault stop of class SERVICE_STOP, the brakes still open. -/
def serviceStopping : State :=
  { stopping with
    run := { stopping.run with stopClass := some .serviceStop }
    brk := { stopping.brk with quickDue := none } }

/-- SETTLING, the rope still moving. -/
def settling : State :=
  { moving .settling 2825000 300 with prof := { (moving .settling 2825000 300).prof with vRef := 0 } }

theorem witness_AcknowledgementRemovesEntries :
    ackCheck base 1 = some .badValue ∧ ackCheck base 28 = some .badValue
    ∧ ackCheck (faulted [entry .overspeedCurve .quickStop false false]) 1 = some .notReported
    ∧ ackCheck (faulted [entry .overspeedCurve .quickStop true true]) 1 = some .conditionPresent
    ∧ ackCheck { moving .running 1300000 8000 with faults := [notice] } 25 = some .moving
    ∧ ackCheck twoFaults 1 = none ∧ twoFaults.Ready ∧ twoFaults.Hears .console ∧ twoFaults.AtRest
    ∧ (∃ e ∈ twoFaults.faults.filter (fun e => decide (e.kind.code ≠ (1 : Byte).toNat)), 0 < e.cls.rank)
    ∧ ackCheck (faulted [entry .overspeedCurve .quickStop false true]) 1 = none
    ∧ (faulted [entry .overspeedCurve .quickStop false true]).AtRest
    ∧ ackCheck { base with faults := [notice] } 25 = none
    ∧ ({ base with faults := [notice] } : State).AtRest
    ∧ ackCheck dwellNotice 25 = none ∧ dwellNotice.AtRest ∧ dwellNotice.run.dwellDue ≠ none
    ∧ (moving .running 1300000 8000).AtRest
    ∧ ends (.ackFault 0 [7, 1]) (faulted [entry .overspeedCurve .quickStop false true]) (fun t =>
      decide (t.run.state = .parked)) = true
    ∧ ends (.ackFaultAll 0 [7, 0]) twoFaults (fun t =>
      decide (t.run.state = .parked) && decide (t.faults = [])) = true :=
  ⟨by decide +kernel, by decide +kernel, by decide +kernel, by decide +kernel, by decide +kernel,
    by decide +kernel, ⟨rfl, rfl, rfl⟩, ⟨rfl, rfl, by decide⟩, atRest (by decide +kernel),
    by decide +kernel, by decide +kernel, atRest (by decide +kernel), by decide +kernel,
    atRest (by decide +kernel), by decide +kernel, atRest (by decide +kernel), by decide,
    atRest (by decide +kernel), by decide +kernel⟩

/-- The states in which ACK_FAULT ALL removes nothing, PREPARING to FAULT_STOPPING, each at rest. -/
theorem witness_AcknowledgementRemovesEntries_none : preparing.AtRest
    ∧ preparing.recs.car.one.doors ≠ .closedLocked ∧ releasing.AtRest
    ∧ releasing.run.state = .releasing ∧ releasing.brk.service.state ≠ .released ∧ settling.AtRest
    ∧ settling.run.state = .settling ∧ settling.run.standstill = false
    ∧ settling.brk.service.state ≠ .applied ∧ serviceStopping.AtRest
    ∧ serviceStopping.run.state = .faultStopping
    ∧ serviceStopping.run.stopClass = some .serviceStop ∧ serviceStopping.run.standstill = false
    ∧ serviceStopping.brk.service.state ≠ .applied ∧ serviceStopping.brk.service.ended = false :=
  ⟨atRest (by decide +kernel), by decide, atRest (by decide +kernel), rfl, by decide,
    atRest (by decide +kernel), rfl, rfl, by decide, atRest (by decide +kernel), rfl, rfl, rfl, by decide,
    rfl⟩

/-- The line with an edit open. -/
def editing : State := { base with store := { lineStore with staging := some lineSet } }

theorem witness_EditRequestsAreDecided : base.Ready ∧ base.Hears .console ∧ base.store.staging = none
    ∧ editing.Ready ∧ editing.Hears .console ∧ editing.store.staging ≠ none
    ∧ ({ moving .running 1300000 8000 with store := editing.store } : State).run.state ≠ .parked
    ∧ ends (.openEdit 0 [7]) base (fun t => decide (t.store.staging = some lineSet)) = true
    ∧ ends (.abandonEdit 0 [7]) editing (fun t => decide (t.store.staging = none)) = true
    ∧ ends (.commitEdit 0 [7]) editing (fun t => decide (t.store.cycle = .commit lineSet)) = true :=
  ⟨base_ready, base_hears _, rfl, ⟨rfl, rfl, rfl⟩, ⟨rfl, rfl, by decide⟩, by decide +kernel⟩

/-- WRITE_ITEM of setting 24, dwell minimum 20 s, and READ_ITEM of the same. -/
theorem witness_ItemRequestsAreDecided : editing.Ready ∧ editing.Hears .console
    ∧ ItemClass.ofCode (4 : Byte).toNat = some .setting
    ∧ ([0, 0, 2, 89] : List Byte).length = ItemClass.setting.valueLen
    ∧ ends (.writeItem 0 [7, 4, 0, 24, 0, 0, 2, 89]) editing (fun t =>
      decide (t.store.staging.map (·.settings.dwellS) = some 600)) = true
    ∧ ends (.readItem 0 [7, 4, 0, 24]) base (fun t =>
      decide ((t.link .console).sending = some ⟨0x6F, [0x22, 7, 0, 0, 0, 0, 0, 20]⟩)) = true :=
  ⟨⟨rfl, rfl, rfl⟩, ⟨rfl, rfl, by decide⟩, by decide +kernel⟩

theorem witness_ItemsReadBackAsWritten : lineSet.RangeLaw ∧ lineSet.ClassLaw
    ∧ ([0, 0, 2, 88] : List Byte).length = ItemClass.setting.valueLen
    ∧ (lineSet.writeItem .setting 24 [0, 0, 2, 88]).map (·.2) = some .accepted
    ∧ (lineSet.writeItem .setting 24 [0, 0, 2, 89]).map (·.2) = some .clamped
    ∧ (lineSet.writeItem .class 3 [0]).map (·.2) = some .held
    ∧ lineSet.readItem .setting 25 = none :=
  ⟨lineSet_range, lineSet_classes, by decide +kernel⟩

/-- The part as delivered, every receiver having taken a SYNC. -/
def delivered : State := { State.reset with links := received (.inFrame []) State.reset.links }

theorem witness_ConstantRequestsAreDecided : delivered.Ready ∧ delivered.Hears .console
    ∧ ends (.writeConstant 0 [7, 1, 0, 0x2B, 0x6D, 0x30]) delivered (fun t =>
      decide (t.store.cycle = .constant .lr 2846000)) = true
    ∧ ends (.readConstant 0 [7, 1]) delivered (fun t =>
      decide ((t.link .console).sending = some ⟨0x6F, [0x29, 7, 0, 0, 255, 255, 255, 255]⟩)) = true
    ∧ ends (.lockConstants 0 [7]) { base with store := { lineStore with lock := false } } (fun t =>
      decide (t.store.cycle = .lock)) = true :=
  ⟨⟨rfl, rfl, rfl⟩, ⟨rfl, rfl, by decide⟩, by decide +kernel⟩

theorem witness_StoreCyclesComplete : base.held = false ∧ base.Quiet
    ∧ ({ lineStore with cycle := .constant .mMax 5000 } : Store).cycle = .constant .mMax 5000
    ∧ ({ lineStore with cycle := .lock } : Store).cycle = .lock
    ∧ (∀ n v, base.store.cycle ≠ .constant n v) ∧ base.store.cycle ≠ .lock
    ∧ ConstName.pMain.channel = some .main
    ∧ ends (.constantWriteComplete 0)
      { base with store := { lineStore with cycle := .constant .mMax 5000 } } (fun t =>
      decide (t.recs.car.one.load = some 5000) && decide (t.recs.car.two.load = some 1200)) = true :=
  ⟨rfl, ⟨rfl, rfl⟩, rfl, rfl, by simp [base, lineStore], by decide, rfl, by decide +kernel⟩

theorem witness_CommitCompletes : base.held = false
    ∧ ({ lineStore with cycle := .commit lineSet } : Store).cycle = .commit lineSet
    ∧ 0 ≤ lineSet.settings.cMax ∧ base.reck.referenced = true
    ∧ (∀ k, mag (base.reck.c.get k) ≤ lineSet.settings.cMax)
    ∧ ends (.commitCycleComplete 0)
      { base with store := { lineStore with cycle := .commit OperatingSet.factory } } (fun t =>
      decide (t.store.active = OperatingSet.factory) && t.store.mark) = true :=
  ⟨rfl, rfl, by decide, rfl, fun k => by cases k <;> decide, by decide +kernel⟩

/-! ## Witnesses: invariants -/

theorem witness_RunLawsKept : ({ base with pending := [.run 0 [7, 1, 3]] } : State).RunLaws
    ∧ ∃ t, step { base with pending := [.run 0 [7, 1, 3]] } = .next t :=
  ⟨runLaws (by decide +kernel), _, rfl⟩

theorem witness_QueueAndShapeKept : sixQueued.QueueLaw ∧ base.ShapeLaw ∧ ∃ t, step base = .next t :=
  ⟨⟨by decide, by decide⟩, base_shape, _, rfl⟩

theorem witness_FaultLawKept : stopping.FaultLaw ∧ ∃ t, step stopping = .next t :=
  ⟨stopping_faults, _, rfl⟩

theorem witness_CorrectionLawKept : base.CorrectionLaw ∧ ∃ t, step base = .next t := by
  refine ⟨⟨fun o h => ?_, fun k => by cases k <;> decide⟩, _, rfl⟩
  have : o = lineSet := by simpa [Store.sets, base, lineStore] using h
  rw [this]; decide

theorem witness_StoreLawsKept : base.RangeLaw ∧ base.LockLaw ∧ base.store.lock = true
    ∧ ∃ t, step base = .next t :=
  ⟨base_range, fun _ n v => by simp [base, lineStore], rfl, _, rfl⟩

end Sys2Proof.Tests
end

section
/-!
The target of two exact targets (R129 to R131): what `makeTarget` answers within the joint window and
beyond it, and how far the two predicted errors lie from 0 in each case.
-/

namespace Sys2Proof.Machine

/-! ## Magnitudes -/

theorem mag_le_iff (x b : Int) : mag x ≤ b ↔ -b ≤ x ∧ x ≤ b := by
  unfold mag; omega

theorem mag_sub_comm (x y : Int) : mag (x - y) = mag (y - x) := by
  unfold mag; rw [← Int.natAbs_neg, neg_sub]

/-! ## The midpoint rounded down -/

theorem floorDiv_two_bounds (x : Int) : 2 * floorDiv x 2 ≤ x ∧ x < 2 * floorDiv x 2 + 2 := by
  unfold floorDiv; omega

/-- Rounding down costs the midpoint at most half a unit, and W is a whole number: so two targets within
2W of each other both lie within W of it. -/
theorem midpoint_within_window {s1 s2 w t : Int} (hnear : mag (s1 - s2) ≤ 2 * w)
    (hlow : 2 * t ≤ s1 + s2) (hhigh : s1 + s2 < 2 * t + 2) :
    mag (t - s1) ≤ w ∧ mag (s2 - t) ≤ w := by
  simp only [mag_le_iff] at hnear ⊢
  omega

/-! ## What makeTarget answers -/

section
variable (x : Stop) (s1 s2 w : Int) (list : List Entry)

@[simp] theorem makeTarget_stop : (makeTarget x s1 s2 w list).stop = x := by
  unfold makeTarget; split <;> rfl

@[simp] theorem makeTarget_exact : (makeTarget x s1 s2 w list).exact = ⟨s1, s2⟩ := by
  unfold makeTarget; split <;> rfl

/-- Shared or split, the predicted errors are measured from s* alone (R131). -/
theorem makeTarget_perr : (makeTarget x s1 s2 w list).perr =
    ⟨(makeTarget x s1 s2 w list).sStar - s1, s2 - (makeTarget x s1 s2 w list).sStar⟩ := by
  unfold makeTarget; split <;> rfl

variable {s1 s2 w}

theorem makeTarget_of_near (h : mag (s1 - s2) ≤ 2 * w) :
    (makeTarget x s1 s2 w list).shared = true ∧ (makeTarget x s1 s2 w list).favoured = none
      ∧ (makeTarget x s1 s2 w list).sStar = floorDiv (s1 + s2) 2 := by
  simp [makeTarget, h]

theorem makeTarget_of_far (h : 2 * w < mag (s1 - s2)) :
    (makeTarget x s1 s2 w list).shared = false
      ∧ (makeTarget x s1 s2 w list).favoured = some (favouredOf list)
      ∧ (makeTarget x s1 s2 w list).sStar = (PerCar.mk s1 s2).get (favouredOf list) := by
  simp [makeTarget, not_le.mpr h]

end

/-- The favoured car is named by the first single-car side of the list, else it is car 1 (R130). -/
theorem favouredOf_eq_head (list : List Entry) :
    favouredOf list = (list.filterMap (·.side.single)).head?.getD .one := by
  rw [favouredOf, List.head?_filterMap]

/-- A car stopped at its own exact target has no error, and the other car's error is the whole distance
between the two targets. -/
theorem perr_of_stop_at_own_target {s1 s2 t : Int} {k : Car} (h : t = (PerCar.mk s1 s2).get k) :
    (PerCar.mk (t - s1) (s2 - t)).get k = 0
      ∧ mag ((PerCar.mk (t - s1) (s2 - t)).get k.other) = mag (s1 - s2) := by
  subst h
  cases k with
  | one => exact ⟨sub_self s1, mag_sub_comm s2 s1⟩
  | two => exact ⟨sub_self s2, mag_sub_comm s2 s1⟩

/-! ## The obligation -/

/-- Settles O18: within 2W the floored midpoint lies within W of both targets; beyond 2W the favoured car
stops exactly and the other car's error is the whole distance between the targets. -/
theorem targetSharesOrSplits : Obligations.TargetSharesOrSplits := by
  intro x s1 s2 w list _ t
  have hperr : t.perr = ⟨t.sStar - s1, s2 - t.sStar⟩ := makeTarget_perr x s1 s2 w list
  refine ⟨makeTarget_stop .., makeTarget_exact .., by rw [hperr], by rw [hperr], fun hnear => ?_,
    fun hfar => ?_⟩
  · obtain ⟨hshared, hnone, hstar⟩ := makeTarget_of_near x list hnear
    obtain ⟨hlow, hhigh⟩ := floorDiv_two_bounds (s1 + s2)
    rw [← hstar] at hlow hhigh
    rw [hperr]
    exact ⟨hshared, hnone, hlow, hhigh, midpoint_within_window hnear hlow hhigh⟩
  · obtain ⟨hsplit, hsome, hstar⟩ := makeTarget_of_far x list hfar
    obtain ⟨hown, hother⟩ := perr_of_stop_at_own_target hstar
    rw [hperr]
    exact ⟨hsplit, favouredOf list, hsome, hstar, hown, hother ▸ hfar, favouredOf_eq_head list⟩

end Sys2Proof.Machine
end

section
/-!
The console's requests to the Configuration Store (R189 to R199): what such a request comes to, from the
characters of its frame to the state after its event, and its checks in the words of the manual.
-/

namespace Sys2Proof.Machine

/-! ## Delivery of a request -/

theorem MsgType.ofCode_code (t : MsgType) : MsgType.ofCode t.code = some t := by
  cases t <;> rfl

theorem ItemClass.valueLen_le (c : ItemClass) : c.valueLen ≤ 10 := by
  cases c <;> decide

/-- No request type requires a length that the LEN octet does not admit (R176). -/
theorem MsgType.length_le_of_lengthOk {t : MsgType} {pl : List Byte} (h : t.lengthOk pl = true) :
    pl.length ≤ 192 := by
  cases t with
  | writeItem =>
    simp only [MsgType.lengthOk] at h
    split at h
    · rename_i c _
      have hlen : pl.length = 4 + c.valueLen := by simp at h; exact h.2
      have hval := c.valueLen_le
      omega
    · cases h
  | _ =>
    simp only [MsgType.lengthOk, decide_eq_true_eq] at h
    omega

/-- A type that the console may send is no state message (R179). -/
theorem MsgType.isState_of_permitted {t : MsgType} (h : t.permitted .console = true) :
    t.isState = false := by
  simp only [MsgType.permitted, Bool.and_eq_true, Bool.not_eq_true'] at h
  obtain ⟨⟨hstate, _⟩, _⟩ := h
  exact hstate

/-- A permitted request of the right length is delivered to its owning block (R179). -/
theorem State.takeFrame_request (s : State) {t : MsgType} {pl : List Byte}
    (ht : t.permitted .console = true) (hl : t.lengthOk pl = true) :
    s.takeFrame .console t.code pl = s.takeRequest .console t pl := by
  simp [State.takeFrame, MsgType.ofCode_code, ht, MsgType.isState_of_permitted ht, hl]

/-! ## The state in which a request is answered -/

/-- The state in which the owning block answers a request on the UP console link, `dt` µs on. -/
def State.asked (s : State) (dt : Nat) : State := (s.advance dt).heard .console

@[simp] theorem State.asked_store (s : State) (dt : Nat) : (s.asked dt).store = s.store := rfl
@[simp] theorem State.asked_run (s : State) (dt : Nat) : (s.asked dt).run = s.run := rfl
@[simp] theorem State.asked_queue (s : State) (dt : Nat) : (s.asked dt).queue = s.queue := rfl
@[simp] theorem State.asked_shuttle (s : State) (dt : Nat) : (s.asked dt).shuttle = s.shuttle := rfl

section
variable {s : State} (hr : s.Ready) (hh : s.Hears .console) (dt : Nat) {t : MsgType} {pl : List Byte}
  (ht : t.permitted .console = true) (hl : t.lengthOk pl = true)
include hr hh ht hl

/-- The event of a request is its answer, its REPLY, and the command messages that it triggers. -/
theorem State.event_request : s.event dt (State.hear .console t.code pl)
    = State.announce (s.advance dt) ((s.asked dt).takeRequest .console t pl) := by
  rw [State.event_runs hr.1, State.hear_hears (s := s.advance dt) hh t.code
    (MsgType.length_le_of_lengthOk hl)]
  exact congrArg _ (State.takeFrame_request _ ht hl)

/-- What the event of a request leaves in the store is what the answer leaves there. -/
theorem State.event_request_store : (s.event dt (State.hear .console t.code pl)).store
    = ((s.asked dt).answer .console t pl).1.store := by
  rw [State.event_request hr hh dt ht hl]
  exact (State.announce_sends _ _).store

/-- A request whose answer changes nothing but the store, and not its active set: the event comes to the
answered state with that store. -/
theorem State.event_stored {st : Store} {r : Reply} (hact : st.active = s.store.active)
    (ha : (s.asked dt).answer .console t pl = ({ s.asked dt with store := st }, r)) :
    s.event dt (State.hear .console t.code pl)
      = { s.answered dt .console t.code (tagOf pl) r with store := st } := by
  have hb : State.hear .console t.code pl (s.advance dt)
      = { s.answered dt .console t.code (tagOf pl) r with store := st } := by
    rw [State.hear_hears (s := s.advance dt) hh t.code (MsgType.length_le_of_lengthOk hl),
      State.takeFrame_request _ ht hl, State.takeRequest, ← State.asked, ha]
    rfl
  refine State.event_same hr.1 dt hb hr.2 ⟨rfl, rfl, hact, fun q => ?_⟩
  cases q <;> simp [State.answered, State.heardLink, State.linkUp, State.link, PerParty.get, PerParty.set]

/-- A request whose answer changes nothing: the event comes to the answered state. -/
theorem State.event_told {r : Reply}
    (ha : (s.asked dt).answer .console t pl = (s.asked dt, r)) :
    s.event dt (State.hear .console t.code pl) = s.answered dt .console t.code (tagOf pl) r :=
  State.event_stored hr hh dt ht hl (st := s.store) rfl ha

end

/-! ## The checks of the store's requests -/

theorem Store.busy_iff {st : Store} : st.busy = true ↔ st.cycle ≠ .idle := by
  unfold Store.busy
  cases st.cycle <;> simp

theorem Store.editOpen_iff {st : Store} : st.editOpen = true ↔ st.staging ≠ none := by
  unfold Store.editOpen
  cases st.staging <;> simp

theorem RunState.admitsStore_eq_false {st : RunState} :
    st.admitsStore = false ↔ st ≠ .parked ∧ st ≠ .faultHeld := by
  cases st <;> simp [RunState.admitsStore]

/-- The commissioning state of an unlocked store (R188). -/
theorem Store.commissioning_unlocked {st : Store} (h : ¬ st.lock = true) :
    st.commissioning = if st.consts.complete = true then .set else .unset := by
  rw [Store.commissioning, if_neg h]

/-- An arbitration event leaves the store. -/
theorem State.arbitrating_store (s : State) : s.arbitrating.store = s.store := by
  unfold State.arbitrating
  split
  · exact (State.settle_settles _).outer.store
  · rfl

/-! ## Edit requests -/

/-- OPEN_EDIT by its checks (R194). -/
theorem State.event_openEdit {s : State} (hr : s.Ready) (hh : s.Hears .console) (dt : Nat) (tag : Byte) :
    let told := fun r : ReplyCode => s.answered dt .console 0x20 tag { code := r }
    s.event dt (State.hear .console MsgType.openEdit.code [tag]) =
      if s.store.cycle ≠ .idle then told .busy
      else if s.store.staging ≠ none then told .editOpen
      else if s.run.state ≠ .parked ∧ s.run.state ≠ .faultHeld then told .wrongState
      else if s.queue ≠ [] ∨ s.shuttle.active = true then told .wrongState
      else { told .accepted with store := { s.store with staging := some s.store.active } } := by
  intro told
  have htold {c : ReplyCode} (ha : (s.asked dt).answerOpenEdit = (s.asked dt).refuse c) :
      s.event dt (State.hear .console MsgType.openEdit.code [tag]) = told c :=
    State.event_told hr hh dt (t := .openEdit) rfl rfl ha
  simp only [← Store.busy_iff, ← Store.editOpen_iff, ← RunState.admitsStore_eq_false]
  split_ifs with hbusy hopen hstate hcalls
  · exact htold (by simp [State.answerOpenEdit, hbusy])
  · exact htold (by simp [State.answerOpenEdit, hbusy, hopen])
  · exact htold (by simp [State.answerOpenEdit, hbusy, hopen, hstate])
  · exact htold (by simp [State.answerOpenEdit, hbusy, hopen, hstate, hcalls])
  · refine State.event_stored hr hh dt (t := .openEdit) rfl rfl rfl ?_
    simp [State.answer, State.answerOpenEdit, hbusy, hopen, hstate, hcalls, State.modStore, State.accept]

/-- ABANDON_EDIT without an open edit (R199). -/
theorem State.event_abandonEdit_refused {s : State} (hr : s.Ready) (hh : s.Hears .console) (dt : Nat)
    (tag : Byte) (hnone : s.store.staging = none) :
    s.event dt (State.hear .console MsgType.abandonEdit.code [tag])
      = s.answered dt .console 0x24 tag { code := .noEdit } := by
  refine State.event_told hr hh dt (t := .abandonEdit) rfl rfl ?_
  simp [State.answer, State.answerAbandon, Store.editOpen, hnone, State.refuse]

/-- Outside PARKED, ABANDON_EDIT discards the staging copy and no arbitration follows (R61, R199). -/
theorem State.event_abandonEdit {s : State} (hr : s.Ready) (hh : s.Hears .console) (dt : Nat)
    (tag : Byte) (hopen : s.store.staging ≠ none) (hstate : s.run.state ≠ .parked) :
    s.event dt (State.hear .console MsgType.abandonEdit.code [tag])
      = { s.answered dt .console 0x24 tag { code := .accepted } with
          store := { s.store with staging := none } } := by
  refine State.event_stored hr hh dt (t := .abandonEdit) rfl rfl rfl ?_
  simp [State.answer, State.answerAbandon, Store.editOpen_iff.mpr hopen, State.arbitrating, hstate,
    State.modStore]

/-- In every state ABANDON_EDIT discards the staging copy, whatever the arbitration then starts (R199). -/
theorem State.event_abandonEdit_store {s : State} (hr : s.Ready) (hh : s.Hears .console) (dt : Nat)
    (tag : Byte) (hopen : s.store.staging ≠ none) :
    (s.event dt (State.hear .console MsgType.abandonEdit.code [tag])).store
      = { s.store with staging := none } := by
  rw [State.event_request_store hr hh dt (t := .abandonEdit) rfl rfl]
  simp [State.answer, State.answerAbandon, Store.editOpen_iff.mpr hopen, State.arbitrating_store]

/-- COMMIT_EDIT by its checks (R197). -/
theorem State.event_commitEdit {s : State} (hr : s.Ready) (hh : s.Hears .console) (dt : Nat) (tag : Byte) :
    let told := fun r : Reply => s.answered dt .console 0x23 tag r
    s.event dt (State.hear .console MsgType.commitEdit.code [tag]) =
      if s.store.cycle ≠ .idle then told { code := .busy }
      else match s.store.staging with
        | none => told { code := .noEdit }
        | some o => match o.validate s.store.consts.lr with
          | some item => told { code := .invalidTable, detail := item }
          | none =>
            { told { code := .accepted } with
              store := { s.store with staging := none, mark := false, cycle := .commit o } } := by
  intro told
  have htold {r : Reply} (ha : (s.asked dt).answerCommit = (s.asked dt, r)) :
      s.event dt (State.hear .console MsgType.commitEdit.code [tag]) = told r :=
    State.event_told hr hh dt (t := .commitEdit) rfl rfl ha
  simp only [← Store.busy_iff]
  split_ifs with hbusy
  · exact htold (by simp [State.answerCommit, hbusy, State.refuse])
  split
  next hnone => exact htold (by simp [State.answerCommit, hbusy, hnone, State.refuse])
  next o hopen =>
    split
    next item hfails => exact htold (by simp [State.answerCommit, hbusy, hopen, hfails])
    next hpasses =>
      refine State.event_stored hr hh dt (t := .commitEdit) rfl rfl rfl ?_
      simp [State.answer, State.answerCommit, hbusy, hopen, hpasses, State.modStore, Store.startCommit,
        State.accept]

/-- Settles O49: each of the three requests by its own checks; the store is what ABANDON_EDIT leaves,
because no arbitration changes it. -/
theorem editRequestsAreDecided : Obligations.EditRequestsAreDecided := by
  intro dt tag s hr hh told
  refine ⟨congrArg _ (State.event_openEdit hr hh dt tag), fun hnone => ?_, fun hopen => ⟨fun hstate => ?_,
    _, rfl, State.event_abandonEdit_store hr hh dt tag hopen⟩,
    congrArg _ (State.event_commitEdit hr hh dt tag)⟩
  · exact congrArg _ (State.event_abandonEdit_refused hr hh dt tag hnone)
  · exact congrArg _ (State.event_abandonEdit hr hh dt tag hopen hstate)

/-! ## Item requests -/

/-- The sixteen-bit index of an item request. -/
theorem getUnsigned_two (h l : Byte) : getUnsigned [h, l] = 256 * h.toNat + l.toNat := by
  simp [getUnsigned]
  omega

/-- WRITE_ITEM by its checks, for a class with a value of its length (R195). -/
theorem State.event_writeItem {s : State} (hr : s.Ready) (hh : s.Hears .console) (dt : Nat)
    (tag c h l : Byte) {v : List Byte} {item : ItemClass} (hitem : ItemClass.ofCode c.toNat = some item)
    (hlen : v.length = item.valueLen) :
    let told := fun r : ReplyCode => s.answered dt .console 0x21 tag { code := r }
    s.event dt (State.hear .console MsgType.writeItem.code (tag :: c :: h :: l :: v)) =
      match s.store.staging with
      | none => told .noEdit
      | some o => match o.writeItem item (256 * h.toNat + l.toNat) v with
        | none => told .badValue
        | some (o', code) => { told code with store := { s.store with staging := some o' } } := by
  intro told
  have hclass : ItemClass.ofCode (byteAt (tag :: c :: h :: l :: v) 1) = some item := hitem
  have hindex : fieldAt (tag :: c :: h :: l :: v) 2 2 = 256 * h.toNat + l.toNat := getUnsigned_two h l
  have hfits : MsgType.writeItem.lengthOk (tag :: c :: h :: l :: v) = true := by
    simp [MsgType.lengthOk, hclass, hlen]
    omega
  have htold {r : ReplyCode}
      (ha : (s.asked dt).answerWriteItem (tag :: c :: h :: l :: v) = (s.asked dt).refuse r) :
      s.event dt (State.hear .console MsgType.writeItem.code (tag :: c :: h :: l :: v)) = told r :=
    State.event_told hr hh dt (t := .writeItem) rfl hfits ha
  split
  next hnone => exact htold (by simp [State.answerWriteItem, hnone])
  next o hopen =>
    split
    next hbad => exact htold (by simp [State.answerWriteItem, hopen, hclass, hindex, hbad])
    next o' code hwrites =>
      refine State.event_stored hr hh dt (t := .writeItem) rfl hfits rfl ?_
      simp [State.answer, State.answerWriteItem, hopen, hclass, hindex, hwrites, State.modStore]

/-- READ_ITEM by its checks (R196). -/
theorem State.event_readItem {s : State} (hr : s.Ready) (hh : s.Hears .console) (dt : Nat)
    (tag c h l : Byte) :
    let told := fun r : Reply => s.answered dt .console 0x22 tag r
    s.event dt (State.hear .console MsgType.readItem.code [tag, c, h, l]) =
      if s.store.cycle ≠ .idle then told { code := .busy }
      else match ItemClass.ofCode c.toNat with
        | none => told { code := .badValue }
        | some item =>
          match (s.store.staging.getD s.store.active).readItem item (256 * h.toNat + l.toNat) with
          | none => told { code := .badValue }
          | some bytes => told { code := .accepted, value := bytes } := by
  intro told
  have hclass : byteAt [tag, c, h, l] 1 = c.toNat := rfl
  have hindex : fieldAt [tag, c, h, l] 2 2 = 256 * h.toNat + l.toNat := getUnsigned_two h l
  have htold {r : Reply} (ha : (s.asked dt).answerReadItem [tag, c, h, l] = (s.asked dt, r)) :
      s.event dt (State.hear .console MsgType.readItem.code [tag, c, h, l]) = told r :=
    State.event_told hr hh dt (t := .readItem) rfl rfl ha
  simp only [← Store.busy_iff]
  split_ifs with hbusy
  · exact htold (by simp [State.answerReadItem, hbusy, State.refuse])
  split
  next hnone => exact htold (by simp [State.answerReadItem, hbusy, hclass, hnone, State.refuse])
  next item hitem =>
    split
    next hbad =>
      exact htold (by simp [State.answerReadItem, hbusy, hclass, hitem, hindex, hbad, State.refuse])
    next bytes hreads =>
      exact htold (by simp [State.answerReadItem, hbusy, hclass, hitem, hindex, hreads])

/-- Settles O50: a write is decided against the staging copy, a read against the staging copy of an open
edit and else against the active copy. -/
theorem itemRequestsAreDecided : Obligations.ItemRequestsAreDecided := by
  intro dt tag c h l v s hr hh i told
  refine ⟨fun item hitem hlen => ?_, ?_⟩
  · exact congrArg _ (State.event_writeItem hr hh dt tag c h l hitem hlen)
  · refine congrArg _ ((State.event_readItem hr hh dt tag c h l).trans ?_)
    cases s.store.staging <;> rfl

/-! ## Constant requests -/

/-- A byte after a number, high part first. -/
theorem toNat_append_byte {n : Nat} (x : BitVec n) (b : Byte) :
    (x ++ b).toNat = x.toNat * 256 + b.toNat := by
  rw [BitVec.toNat_append, ← Nat.shiftLeft_add_eq_or_of_lt b.isLt, Nat.shiftLeft_eq]

/-- The signed number of four bytes is that of their 32 bits. -/
theorem getSigned32_four (b3 b2 b1 b0 : Byte) :
    getSigned32 [b3, b2, b1, b0] = (b3 ++ b2 ++ b1 ++ b0 : BitVec 32).toInt := by
  have hbits : getUnsigned [b3, b2, b1, b0] = (b3 ++ b2 ++ b1 ++ b0 : BitVec 32).toNat := by
    simp only [toNat_append_byte]
    simp [getUnsigned]
  rw [getSigned32, hbits, BitVec.ofNat_toNat, BitVec.setWidth_eq]

theorem ConstName.range_le (n : ConstName) : n.range.1 ≤ n.range.2 := by
  cases n <;> decide

theorem fitted_value {x lo hi : Int} (h : lo ≤ hi) : (fitted x lo hi).1 = max lo (min hi x) := by
  simp only [fitted, clamp]
  split_ifs <;> omega

/-- A write is CLAMPED exactly where the value lies outside its range (R189). -/
theorem writeCode_fitted (x lo hi : Int) :
    writeCode (fitted x lo hi).2 = if lo ≤ x ∧ x ≤ hi then .accepted else .clamped := by
  have hkept : clamp x lo hi = x ↔ lo ≤ x ∧ x ≤ hi := by
    unfold clamp
    split_ifs <;> omega
  by_cases hin : lo ≤ x ∧ x ≤ hi <;> simp [writeCode, fitted, hkept, hin]

/-- WRITE_CONSTANT by its checks (R189). -/
theorem State.event_writeConstant {s : State} (hr : s.Ready) (hh : s.Hears .console) (dt : Nat)
    (tag c b3 b2 b1 b0 : Byte) :
    let x : Int := (b3 ++ b2 ++ b1 ++ b0 : BitVec 32).toInt
    let told := fun r : ReplyCode => s.answered dt .console 0x28 tag { code := r }
    s.event dt (State.hear .console MsgType.writeConstant.code [tag, c, b3, b2, b1, b0]) =
      if s.store.cycle ≠ .idle then told .busy
      else if s.store.lock = true then told .locked
      else if s.store.staging ≠ none then told .editOpen
      else if s.run.state ≠ .parked ∧ s.run.state ≠ .faultHeld then told .wrongState
      else match ConstName.ofCode c.toNat with
        | none => told .badValue
        | some n =>
          { told (if n.range.1 ≤ x ∧ x ≤ n.range.2 then .accepted else .clamped) with
            store := { s.store with cycle := .constant n (max n.range.1 (min n.range.2 x)) } } := by
  intro x told
  have hname : byteAt [tag, c, b3, b2, b1, b0] 1 = c.toNat := rfl
  have hvalue : signedAt [tag, c, b3, b2, b1, b0] 2 = x := getSigned32_four b3 b2 b1 b0
  have htold {r : ReplyCode}
      (ha : (s.asked dt).answerWriteConstant [tag, c, b3, b2, b1, b0] = (s.asked dt).refuse r) :
      s.event dt (State.hear .console MsgType.writeConstant.code [tag, c, b3, b2, b1, b0]) = told r :=
    State.event_told hr hh dt (t := .writeConstant) rfl rfl ha
  simp only [← Store.busy_iff, ← Store.editOpen_iff, ← RunState.admitsStore_eq_false]
  split_ifs with hbusy hlock hopen hstate
  · exact htold (by simp [State.answerWriteConstant, hbusy])
  · exact htold (by simp [State.answerWriteConstant, hbusy, hlock])
  · exact htold (by simp [State.answerWriteConstant, hbusy, hlock, hopen])
  · exact htold (by simp [State.answerWriteConstant, hbusy, hlock, hopen, hstate])
  split
  next hnone => exact htold (by simp [State.answerWriteConstant, hbusy, hlock, hopen, hstate, hname, hnone])
  next n hn =>
    refine State.event_stored hr hh dt (t := .writeConstant) rfl rfl rfl ?_
    simp [State.answer, State.answerWriteConstant, hbusy, hlock, hopen, hstate, hname, hn, hvalue,
      fitted_value n.range_le, writeCode_fitted, State.modStore]

/-- READ_CONSTANT by its checks (R192). -/
theorem State.event_readConstant {s : State} (hr : s.Ready) (hh : s.Hears .console) (dt : Nat)
    (tag c : Byte) :
    let told := fun r : Reply => s.answered dt .console 0x29 tag r
    s.event dt (State.hear .console MsgType.readConstant.code [tag, c]) =
      if s.store.cycle ≠ .idle then told { code := .busy }
      else match ConstName.ofCode c.toNat with
        | none => told { code := .badValue }
        | some n => told { code := .accepted, value := putI32 ((s.store.consts.get n).getD (-1)) } := by
  intro told
  have hname : byteAt [tag, c] 1 = c.toNat := rfl
  have htold {r : Reply} (ha : (s.asked dt).answerReadConstant [tag, c] = (s.asked dt, r)) :
      s.event dt (State.hear .console MsgType.readConstant.code [tag, c]) = told r :=
    State.event_told hr hh dt (t := .readConstant) rfl rfl ha
  simp only [← Store.busy_iff]
  split_ifs with hbusy
  · exact htold (by simp [State.answerReadConstant, hbusy, State.refuse])
  split
  next hnone => exact htold (by simp [State.answerReadConstant, hbusy, hname, hnone, State.refuse])
  next n hn => exact htold (by simp [State.answerReadConstant, hbusy, hname, hn])

/-- LOCK_CONSTANTS by its checks (R191). -/
theorem State.event_lockConstants {s : State} (hr : s.Ready) (hh : s.Hears .console) (dt : Nat)
    (tag : Byte) :
    let told := fun r : Reply => s.answered dt .console 0x2A tag r
    s.event dt (State.hear .console MsgType.lockConstants.code [tag]) =
      if s.store.cycle ≠ .idle then told { code := .busy }
      else if s.store.lock = true then told { code := .locked }
      else if s.store.consts.complete = false then told { code := .notCommissioned }
      else if s.store.staging ≠ none then told { code := .editOpen }
      else if s.run.state ≠ .parked ∧ s.run.state ≠ .faultHeld then told { code := .wrongState }
      else match s.store.active.validate s.store.consts.lr with
        | some item => told { code := .invalidTable, detail := item }
        | none => { told { code := .accepted } with store := { s.store with cycle := .lock } } := by
  intro told
  have htold {r : Reply} (ha : (s.asked dt).answerLock = (s.asked dt, r)) :
      s.event dt (State.hear .console MsgType.lockConstants.code [tag]) = told r :=
    State.event_told hr hh dt (t := .lockConstants) rfl rfl ha
  simp only [← Store.busy_iff, ← Store.editOpen_iff, ← RunState.admitsStore_eq_false]
  have hset := Store.commissioning_unlocked (st := s.store)
  split_ifs with hbusy hlock hunset hopen hstate
  · exact htold (by simp [State.answerLock, hbusy, State.refuse])
  · exact htold (by simp [State.answerLock, hbusy, hlock, State.refuse])
  · exact htold (by simp [State.answerLock, hbusy, hlock, hset, hunset, State.refuse])
  · exact htold (by simp [State.answerLock, hbusy, hlock, hset, hunset, hopen, State.refuse])
  · exact htold (by simp [State.answerLock, hbusy, hlock, hset, hunset, hopen, hstate, State.refuse])
  split
  next item hfails =>
    exact htold (by simp [State.answerLock, hbusy, hlock, hset, hunset, hopen, hstate, hfails])
  next hpasses =>
    refine State.event_stored hr hh dt (t := .lockConstants) rfl rfl rfl ?_
    simp [State.answer, State.answerLock, hbusy, hlock, hset, hunset, hopen, hstate, hpasses, State.modStore,
      State.accept]

/-- Settles O52: each of the three requests by its own checks. -/
theorem constantRequestsAreDecided : Obligations.ConstantRequestsAreDecided := by
  intro dt tag c b3 b2 b1 b0 s hr hh x told
  exact ⟨congrArg _ (State.event_writeConstant hr hh dt tag c b3 b2 b1 b0),
    congrArg _ (State.event_readConstant hr hh dt tag c),
    congrArg _ (State.event_lockConstants hr hh dt tag)⟩

end Sys2Proof.Machine
end

section
/-!
A command as an event: every command but RESET and HELD_IN_RESET is an event of a body, `dt` µs after the
command before it.  What holds of every command is shown once, from its body.
-/

namespace Sys2Proof

open Sys2Proof.Machine

/-! ## Commands as events -/

/-- The time that has passed since the command before; RESET has none. -/
def Instr.elapsed : Instr → Nat
  | .reset => 0
  | .encoderEdge dt _ _ | .inputLevelChange dt _ | .sampleTimerExpiry dt | .standstillTimerExpiry dt
  | .filterTimerExpiry dt _ | .prepareTimerExpiry dt | .dwellTimerExpiry dt | .creepHoldLapse dt
  | .brakeReleaseDeadlineExpiry dt | .brakeApplyDeadlineExpiry dt | .effectivenessCheckExpiry dt
  | .quickStopTimerExpiry dt | .linkTimeout dt _ | .frameGapTimeout dt _ | .crcFailedFrame dt _ _ _ _
  | .badTypeFrame dt _ _ _ | .transmitComplete dt _ | .run dt _ | .callLoop dt _ _ | .cancelEntry dt _
  | .cancelAll dt _ | .cancelRun dt _ | .suspend dt _ | .resume dt _ | .creep dt _ | .shuttleStart dt _
  | .shuttleEnd dt _ | .ackFault dt _ | .ackFaultAll dt _ | .openEdit dt _ | .writeItem dt _
  | .readItem dt _ | .commitEdit dt _ | .abandonEdit dt _ | .writeConstant dt _ | .readConstant dt _
  | .lockConstants dt _ | .constantWriteComplete dt | .lockCycleComplete dt | .commitCycleComplete dt
  | .carState dt _ _ | .loopState dt _ | .driveState dt _ | .statusTimerExpiry dt
  | .carCommandPeriodExpiry dt _ | .loopCommandPeriodExpiry dt | .heldInReset dt | .frameStartSync dt _
  | .missingStopBit dt _ | .lenAbove192 dt _ _ | .notPermittedFrame dt _ _ _ => dt

/-- The characters that a command brings to its party's receiver. -/
def Instr.characters : Instr → List Byte
  | .crcFailedFrame _ _ type pl crc => frameChars type pl crc
  | .badTypeFrame _ _ type pl | .notPermittedFrame _ _ type pl => frameChars type pl (Frame.crc ⟨type, pl⟩)
  | .frameStartSync _ _ => [0x5A]
  | .lenAbove192 _ _ head => [head.type, head.len]
  | .run _ pl => frameChars MsgType.run.code pl (Frame.crc ⟨MsgType.run.code, pl⟩)
  | .callLoop _ _ pl => frameChars MsgType.callLoop.code pl (Frame.crc ⟨MsgType.callLoop.code, pl⟩)
  | .cancelEntry _ pl | .cancelAll _ pl | .cancelRun _ pl =>
    frameChars MsgType.cancel.code pl (Frame.crc ⟨MsgType.cancel.code, pl⟩)
  | .suspend _ pl => frameChars MsgType.suspend.code pl (Frame.crc ⟨MsgType.suspend.code, pl⟩)
  | .resume _ pl => frameChars MsgType.resume.code pl (Frame.crc ⟨MsgType.resume.code, pl⟩)
  | .creep _ pl => frameChars MsgType.creep.code pl (Frame.crc ⟨MsgType.creep.code, pl⟩)
  | .shuttleStart _ pl =>
    frameChars MsgType.shuttleStart.code pl (Frame.crc ⟨MsgType.shuttleStart.code, pl⟩)
  | .shuttleEnd _ pl => frameChars MsgType.shuttleEnd.code pl (Frame.crc ⟨MsgType.shuttleEnd.code, pl⟩)
  | .ackFault _ pl | .ackFaultAll _ pl =>
    frameChars MsgType.ackFault.code pl (Frame.crc ⟨MsgType.ackFault.code, pl⟩)
  | .openEdit _ pl => frameChars MsgType.openEdit.code pl (Frame.crc ⟨MsgType.openEdit.code, pl⟩)
  | .writeItem _ pl => frameChars MsgType.writeItem.code pl (Frame.crc ⟨MsgType.writeItem.code, pl⟩)
  | .readItem _ pl => frameChars MsgType.readItem.code pl (Frame.crc ⟨MsgType.readItem.code, pl⟩)
  | .commitEdit _ pl => frameChars MsgType.commitEdit.code pl (Frame.crc ⟨MsgType.commitEdit.code, pl⟩)
  | .abandonEdit _ pl => frameChars MsgType.abandonEdit.code pl (Frame.crc ⟨MsgType.abandonEdit.code, pl⟩)
  | .writeConstant _ pl =>
    frameChars MsgType.writeConstant.code pl (Frame.crc ⟨MsgType.writeConstant.code, pl⟩)
  | .readConstant _ pl =>
    frameChars MsgType.readConstant.code pl (Frame.crc ⟨MsgType.readConstant.code, pl⟩)
  | .lockConstants _ pl =>
    frameChars MsgType.lockConstants.code pl (Frame.crc ⟨MsgType.lockConstants.code, pl⟩)
  | .carState _ _ pl => frameChars MsgType.carState.code pl (Frame.crc ⟨MsgType.carState.code, pl⟩)
  | .loopState _ pl => frameChars MsgType.loopState.code pl (Frame.crc ⟨MsgType.loopState.code, pl⟩)
  | .driveState _ pl => frameChars MsgType.driveState.code pl (Frame.crc ⟨MsgType.driveState.code, pl⟩)
  | _ => []

/-- What the blocks do at the event of a command that brings no characters. -/
def Instr.timedBody : Instr → State → State
  | .encoderEdge _ ch sense => State.countEdge ch sense
  | .inputLevelChange _ seen => State.seeInputs seen
  | .sampleTimerExpiry _ => State.takeSample
  | .standstillTimerExpiry _ => State.takeStandstill
  | .filterTimerExpiry _ slots => State.takeFilterExpiry slots
  | .prepareTimerExpiry _ => State.takePrepareExpiry
  | .dwellTimerExpiry _ => State.takeDwellExpiry
  | .creepHoldLapse _ => State.takeCreepLapse
  | .brakeReleaseDeadlineExpiry _ => State.takeReleaseExpiry
  | .brakeApplyDeadlineExpiry _ => State.takeApplyExpiry
  | .effectivenessCheckExpiry _ => State.expireChecks
  | .quickStopTimerExpiry _ => State.takeQuickStop
  | .linkTimeout _ p => State.takeLinkTimeout p
  | .frameGapTimeout _ p | .missingStopBit _ p => fun s => s.modLink p Link.hunt
  | .transmitComplete _ p => fun s => s.modLink p Link.transmitted
  | .constantWriteComplete _ => State.takeConstantEnd
  | .lockCycleComplete _ => State.takeLockEnd
  | .commitCycleComplete _ => State.takeCommitEnd
  | .statusTimerExpiry _ => State.takeStatusTimer
  | .carCommandPeriodExpiry _ k => State.takeCarPeriod k
  | .loopCommandPeriodExpiry _ => State.takeLoopPeriod
  | _ => id

/-- What the blocks do at the event of a command. -/
def Instr.body (c : Instr) (s : State) : State :=
  match c.sender with
  | some p => s.takeChars p c.characters
  | none => c.timedBody s

end Sys2Proof

namespace Sys2Proof.Machine

/-- Every command but RESET and HELD_IN_RESET is an event of its body. -/
theorem exec_event {c : Instr} (hr : c ≠ .reset) (hh : ∀ dt, c ≠ .heldInReset dt) (s : State) :
    exec c s = .next (s.event c.elapsed c.body) := by
  cases c
  case reset => exact absurd rfl hr
  case heldInReset dt => exact absurd rfl (hh dt)
  all_goals rfl

/-- What one command comes to, by its three forms. -/
theorem exec_cases {P : Instr → State → State → Prop} (hreset : ∀ s, P .reset s s.startUp)
    (hheld : ∀ dt s, P (.heldInReset dt) s (s.advance dt).hold)
    (hevent : ∀ (c : Instr) s, c ≠ .reset → (∀ dt, c ≠ .heldInReset dt) →
      P c s (s.event c.elapsed c.body)) (c : Instr) (s : State) :
    ∃ t, exec c s = .next t ∧ P c s t := by
  by_cases hr : c = .reset
  · subst hr; exact ⟨_, rfl, hreset s⟩
  by_cases hh : ∃ dt, c = .heldInReset dt
  · obtain ⟨dt, rfl⟩ := hh; exact ⟨_, rfl, hheld dt s⟩
  · have hh : ∀ dt, c ≠ .heldInReset dt := fun dt e => hh ⟨dt, e⟩
    exact ⟨_, exec_event hr hh s, hevent c s hr hh⟩

/-- A law that a start-up brings, that holding keeps and that every event keeps is kept by every step,
where it does not rest on the commands that wait. -/
theorem step_keeps {P : State → Prop} (hpending : ∀ s rest, P s → P { s with pending := rest })
    (hreset : ∀ s, P s → P s.startUp) (hheld : ∀ dt s, P s → P (s.advance dt).hold)
    (hevent : ∀ (c : Instr) s, P s → P (s.event c.elapsed c.body)) {s t : State} (hs : P s)
    (h : step s = .next t) : P t := by
  unfold step at h
  split at h
  · cases h; exact hs
  next c rest _ =>
    obtain ⟨u, hu, hP⟩ := exec_cases (P := fun _ a b => P a → P b) hreset hheld
      (fun c s _ _ => hevent c s) c { s with pending := rest }
    rw [hu] at h
    cases h
    exact hP (hpending s rest hs)

/-! ## The laws of outputs, run state, Run Record, faults and reference -/

/-- The body of every command keeps the run laws. -/
theorem State.RunLaws.body {s : State} (i : s.RunLaws) (c : Instr) : (c.body s).RunLaws := by
  unfold Instr.body
  split
  · exact State.takeChars_inv i _ _
  · cases c
    case encoderEdge => exact i.same rfl rfl rfl rfl
    case inputLevelChange => exact State.seeInputs_inv i _
    case sampleTimerExpiry => exact State.takeSample_inv i
    case standstillTimerExpiry => exact State.takeStandstill_inv i
    case filterTimerExpiry => exact State.takeFilterExpiry_inv i _
    case prepareTimerExpiry => exact State.takePrepareExpiry_inv i
    case dwellTimerExpiry => exact State.takeDwellExpiry_inv i
    case creepHoldLapse => exact State.takeCreepLapse_inv i
    case brakeReleaseDeadlineExpiry => exact State.takeReleaseExpiry_inv i
    case brakeApplyDeadlineExpiry => exact State.takeApplyExpiry_inv i
    case effectivenessCheckExpiry => exact State.expireChecks_inv i
    case quickStopTimerExpiry => exact State.takeQuickStop_inv i
    case linkTimeout => exact State.takeLinkTimeout_inv i _
    case frameGapTimeout | missingStopBit | transmitComplete => exact State.modLink_inv i _ _
    case constantWriteComplete => exact State.takeConstantEnd_inv i
    case lockCycleComplete => exact State.takeLockEnd_inv i
    case commitCycleComplete => exact State.takeCommitEnd_inv i
    case statusTimerExpiry => exact State.takeStatusTimer_inv i
    case carCommandPeriodExpiry => exact State.takeCarPeriod_inv i _
    case loopCommandPeriodExpiry => exact State.takeLoopPeriod_inv i
    all_goals exact i

/-- Settles O55: a start-up brings the run laws, holding keeps them, and so does every command's body. -/
theorem runLawsKept : Obligations.RunLawsKept := by
  intro s t hs h
  refine step_keeps (P := State.RunLaws) ?_ ?_ ?_ ?_ hs h
  · exact fun s rest i => i.same rfl rfl rfl rfl
  · exact fun s _ => s.startUp_inv
  · exact fun dt s i => State.hold_inv (i.same rfl rfl rfl rfl)
  · exact fun c s i => State.event_inv i _ fun _ i => i.body c

/-! ## Single commands -/

/-- Settles O1. -/
theorem stepRunsFrontCommand : Obligations.StepRunsFrontCommand := by
  intro c rest s h
  simp only [step, h]

/-- Settles O6: HELD_IN_RESET puts the after-reset unit, which drives no output, in the place of the
brakes. -/
theorem heldInResetDropsOutputs : Obligations.HeldInResetDropsOutputs :=
  fun _ _ => ⟨_, rfl, rfl, rfl, rfl, rfl⟩

end Sys2Proof.Machine
end

section
/-!
What a reaction of the blocks keeps beyond what `Settles` says: the lengths of the state's lists, the counts
of the channels, and the ranges, those of a run context's a_run among them (R109).
-/

namespace Sys2Proof.Machine

open Sys2Proof

set_option Elab.async false

/-! ## The least of a list -/

theorem least_cons (x y : Int) (ys : List Int) : least x (y :: ys) = least (min x y) ys := rfl

/-- The least of a list is one of it. -/
theorem least_mem (x : Int) (xs : List Int) : least x xs ∈ x :: xs := by
  induction xs generalizing x with
  | nil => exact List.mem_cons_self
  | cons y ys ih =>
    rw [least_cons]
    rcases List.mem_cons.1 (ih (min x y)) with h | h
    · rw [h]
      rcases min_choice x y with e | e <;> simp [e]
    · simp [h]

/-- The least of a list is at most each of it. -/
theorem least_le (x : Int) (xs : List Int) : ∀ y ∈ x :: xs, least x xs ≤ y := by
  induction xs generalizing x with
  | nil => intro y hy; rw [List.mem_singleton.1 hy]; exact le_refl _
  | cons z zs ih =>
    intro y hy
    rw [least_cons]
    have hmin : least (min x z) zs ≤ min x z := ih _ _ List.mem_cons_self
    rcases List.mem_cons.1 hy with rfl | hy
    · exact hmin.trans (min_le_left _ _)
    · rcases List.mem_cons.1 hy with rfl | hy
      · exact hmin.trans (min_le_right _ _)
      · exact ih _ _ (List.mem_cons_of_mem _ hy)

/-! ## The run deceleration lies in its range -/

/-- The percentage that the derating leaves lies from 60 to 100 (R109). -/
theorem derate_bounds {a i : Int} (hlow : 200 ≤ a) (hhigh : a ≤ 1500) (hi : 0 ≤ i) :
    120 ≤ derate a i ∧ derate a i ≤ 1500 := by
  have hp : 60 ≤ 100 - min 40 (i / 250) ∧ 100 - min 40 (i / 250) ≤ 100 := by omega
  unfold derate floorDiv
  generalize 100 - min 40 (i / 250) = p at hp
  have h1 : 200 * 60 ≤ a * p := by nlinarith
  have h2 : a * p ≤ 1500 * 100 := by nlinarith
  omega

/-- Settles O17. -/
theorem decelerationIsBounded : Obligations.DecelerationIsBounded :=
  fun _ _ hlow hhigh hi => ⟨rfl, derate_bounds hlow hhigh hi⟩

theorem OperatingSet.RangeLaw.decel {o : OperatingSet} (h : o.RangeLaw) (g : Fin 4) :
    within (o.settings.decel g) (200, 1500) := by
  fin_cases g
  · exact h.settings 1 _ rfl
  · exact h.settings 2 _ rfl
  · exact h.settings 3 _ rfl
  · exact h.settings 4 _ rfl

theorem OperatingSet.RangeLaw.leastDecel {o : OperatingSet} (h : o.RangeLaw) (gs : List (Fin 4)) :
    within (o.settings.leastDecel gs) (200, 1500) := by
  cases gs with
  | nil => exact h.settings 4 _ rfl
  | cons g gs =>
    have hm : o.settings.leastDecel (g :: gs) ∈ (g :: gs).map o.settings.decel := least_mem _ _
    obtain ⟨g', _, e⟩ := List.mem_map.1 hm
    rw [← e]
    exact h.decel g'

theorem State.RangeLaw.active {s : State} (h : s.RangeLaw) : s.store.active.RangeLaw :=
  h.sets _ (by simp [Store.sets])

theorem mag_nonneg (x : Int) : 0 ≤ mag x := by unfold mag; omega

/-- A constant in force lies in its range, unset or not (R33, R188). -/
theorem State.RangeLaw.const {s : State} (h : s.RangeLaw) (n : ConstName) :
    within (s.const n) n.range := by
  unfold State.const Constants.inForce
  cases hv : s.store.consts.get n with
  | none => exact ⟨le_refl _, n.range_le⟩
  | some v => exact h.consts n v (.inl hv)

theorem State.RangeLaw.imbalance_nonneg {s : State} (h : s.RangeLaw) : 0 ≤ s.imbalance := by
  unfold State.imbalance
  split
  · have hm : 500 ≤ s.const .mMax := (h.const .mMax).1
    omega
  · exact mag_nonneg _

/-- a_run as it is formed lies between 120 and 1,500 mm/s² (R109). -/
theorem State.RangeLaw.runDecel {s : State} (h : s.RangeLaw) (p : PerCar Int) (x : Int)
    (target : Option Int) : 120 ≤ s.runDecel p x target ∧ s.runDecel p x target ≤ 1500 := by
  have hc : within (s.classDecel p x target) (200, 1500) := by
    unfold State.classDecel
    simp only
    split <;> exact h.active.leastDecel _
  exact derate_bounds hc.1 hc.2 h.imbalance_nonneg

/-! ## The run context is kept or discarded -/

/-- The run context as it was, or none. -/
def SameContext (s t : State) : Prop := t.prof.ctx = s.prof.ctx ∨ t.prof.ctx = none

theorem SameContext.refl (s : State) : SameContext s s := .inl rfl

theorem SameContext.of {s t : State} (h : t.prof = s.prof) : SameContext s t := .inl (by rw [h])

theorem SameContext.trans {s t u : State} (a : SameContext s t) (b : SameContext t u) :
    SameContext s u := by
  rcases b with b | b
  · rcases a with a | a
    · exact .inl (b.trans a)
    · exact .inr (b.trans a)
  · exact .inr b

theorem State.enterState_context (s : State) (st : RunState) (f : Option Flavour)
    (c : Option StopClass) : SameContext s (s.enterState st f c) := by
  unfold SameContext State.enterState Profile.enter
  cases st <;> simp

theorem State.startClass_context (s : State) (c : StopClass) : SameContext s (s.startClass c) :=
  .of (s.startClass_prof c)

theorem State.reactToFault_context (s : State) (c : StopClass) :
    SameContext s (s.reactToFault c) := by
  have hs : SameContext s (s.enterFaultStopping c) :=
    (State.enterState_context s.clearCalls.dropRun _ _ _).trans (State.startClass_context _ _)
  have hr : SameContext s (s.raiseClass c) :=
    (s.enterState_context _ _ _).trans (State.startClass_context _ _)
  have hh : SameContext s s.enterFaultHeld := State.enterState_context s.clearCalls.dropRun _ _ _
  unfold State.reactToFault
  repeat' split
  all_goals first | exact hh | exact hs | exact hr | exact .refl s

theorem State.takeReports_context (s : State) (rs : List Report) :
    SameContext s (s.takeReports rs) := by
  obtain ⟨_, _, hp⟩ := State.latches_run rs s
  have h1 : SameContext s (rs.foldl State.latch s) := .of hp
  have he (u : State) : SameContext u u.emergencyDemand := .of u.emergencyDemand_prof
  unfold State.takeReports
  simp only
  split <;> split
  · exact (h1.trans (he _)).trans (State.reactToFault_context _ _)
  · exact h1.trans (State.reactToFault_context _ _)
  · exact h1.trans (he _)
  · exact h1

theorem State.brakeFeedback_prof (s : State) (old : List Slot) :
    (s.brakeFeedback old).prof = s.prof := by
  unfold State.brakeFeedback
  simp only
  split <;> split <;> simp

theorem State.takeOutputs_context (s : State) (old : List Slot) :
    SameContext s (s.takeOutputs old) := by
  have h : SameContext s ((s.modProf fun p => { p with wind := s.out 9 }).brakeFeedback old) :=
    .inl (by rw [State.brakeFeedback_prof]; rfl)
  exact h.trans (State.takeReports_context _ _)

theorem State.enterPreparing_context (s : State) (m : Mode) (d : Dir) (x : Option Stop)
    (ids : List Ident) : SameContext s (s.enterPreparing m d x ids) := by
  have h := State.enterState_context s.clearMarks .preparing none none
  unfold State.enterPreparing
  simp only
  cases x <;> exact h

theorem State.enterParked_context (s : State) : SameContext s s.enterParked :=
  s.enterState_context .parked none none

theorem State.enterDwell_context (s : State) (x : Stop) (ids : List Ident) :
    SameContext s (s.enterDwell x ids) := by
  have h1 : SameContext s (s.serveDwell x ids (s.stopErrors x)) := by cases x <;> exact .inl rfl
  have h2 (f : RunControl → RunControl) :=
    h1.trans (State.enterState_context ((s.serveDwell x ids (s.stopErrors x)).modRun f) .dwell none none)
  unfold State.enterDwell
  simp only
  split
  · exact (h2 _).trans (State.takeReports_context _ _)
  · exact h2 _

theorem State.arbitrate_context (s : State) : SameContext s s.arbitrate := by
  unfold State.arbitrate State.takeChoice
  simp only
  repeat' split
  · exact .inl rfl
  · exact State.enterDwell_context (s.modRun fun r => { r with arbitrate := false }) _ _
  · exact State.enterPreparing_context (s.modRun fun r => { r with arbitrate := false }) _ _ _ _
  · exact .inl rfl

theorem State.enterSettling_context (s : State) (f : Flavour) : SameContext s (s.enterSettling f) :=
  s.enterState_context .settling (some f) none

theorem State.endSettling_context (s : State) : SameContext s s.endSettling := by
  have h : SameContext s s.disableDrive := .of s.disableDrive_prof
  unfold State.endSettling
  simp only
  repeat' split
  all_goals first
    | exact h.trans (State.enterState_context _ _ _ _)
    | exact h.trans (State.enterDwell_context _ _ _)

theorem State.runSettling_context (s : State) : SameContext s s.runSettling := by
  have ha : SameContext s (s.apply .both) := .of (s.apply_prof _)
  unfold State.runSettling
  simp only
  split <;> split
  · exact ha.trans (State.endSettling_context _)
  · exact ha
  · exact s.endSettling_context
  · exact .refl s

theorem State.runFaultStopping_context (s : State) : SameContext s s.runFaultStopping := by
  have h1 : SameContext s (if s.classApplies then s.classApply else s) := by
    split
    · exact .of s.classApply_prof
    · exact .refl s
  unfold State.runFaultStopping
  simp only
  generalize (if s.classApplies then s.classApply else s) = u at h1
  have h2 : SameContext s (if u.brakesDone ∧ u.brk.enable = true then u.disableDrive else u) := by
    split
    · exact h1.trans (.of u.disableDrive_prof)
    · exact h1
  generalize (if u.brakesDone ∧ u.brk.enable = true then u.disableDrive else u) = w at h2
  split
  · exact h2.trans (State.enterState_context _ _ _ _)
  · exact h2

theorem State.testDistance_context (s : State) : SameContext s s.testDistance := by
  unfold State.testDistance
  repeat' split
  all_goals exact .inl rfl

theorem State.endSuspendRamp_context (s : State) : SameContext s s.endSuspendRamp := by
  unfold State.endSuspendRamp
  split
  · exact s.enterSettling_context _
  · exact .refl s

theorem State.decideChecks_context (s : State) (due : Check → Bool) :
    SameContext s (s.decideChecks due) := by
  have h1 (u : State) (r : Report) : SameContext u (u.report r) := u.takeReports_context [r]
  have h2 (u : State) (w : BrakeSet) : SameContext u (u.apply w) := .of (u.apply_prof w)
  have h0 : SameContext s (s.modBrk fun u => { u with checks := u.checks.filter fun c => !due c }) :=
    .inl rfl
  unfold State.decideChecks State.failChecks
  simp only
  generalize (s.modBrk fun u => { u with checks := u.checks.filter fun c => !due c }) = x at h0
  repeat' split
  · exact h0
  · exact (h0.trans (h1 _ _)).trans (h2 _ _)
  · exact h0.trans (h1 _ _)
  · exact (h0.trans (h1 _ _)).trans (h2 _ _)
  · exact h0.trans (h1 _ _)

/-! ## The ranges -/

/-- A change that leaves the store and keeps or discards the run context keeps the ranges. -/
theorem State.RangeLaw.context {s t : State} (h : s.RangeLaw) (hs : t.store = s.store)
    (hc : SameContext s t) : t.RangeLaw where
  sets := by rw [hs]; exact h.sets
  consts := by rw [hs]; exact h.consts
  decel c e := by
    rcases hc with hc | hc
    · exact h.decel c (hc ▸ e)
    · rw [hc] at e; cases e

/-- A change that leaves the store and forms a_run anew keeps the ranges. -/
theorem State.RangeLaw.formed {s t : State} (h : s.RangeLaw) (hs : t.store = s.store)
    (hc : ∀ c, t.prof.ctx = some c → 120 ≤ c.aRun ∧ c.aRun ≤ 1500) : t.RangeLaw where
  sets := by rw [hs]; exact h.sets
  consts := by rw [hs]; exact h.consts
  decel := hc

theorem State.RangeLaw.createContext {s : State} (h : s.RangeLaw) (r : RunRecord) :
    (s.createContext r).RangeLaw :=
  h.formed rfl fun c e => by
    have e : c = _ := (Option.some.inj e).symm
    rw [e]
    exact h.runDecel _ _ _

theorem State.RangeLaw.retarget {s : State} (h : s.RangeLaw) (p : PerCar Int) (x : Int) :
    (s.retarget p x).RangeLaw :=
  h.formed rfl fun c e => by
    obtain ⟨c', _, rfl⟩ := Option.map_eq_some_iff.1 e
    exact h.runDecel _ _ _

theorem State.RangeLaw.exitPreparing {s : State} (h : s.RangeLaw) (r : RunRecord) :
    (s.exitPreparing r).RangeLaw := by
  have hr (u : State) (hu : u.RangeLaw) : u.enterReleasing.RangeLaw :=
    hu.context rfl (u.enterState_context .releasing none none)
  unfold State.exitPreparing
  simp only
  refine hr _ (State.RangeLaw.createContext ?_ r)
  split <;> exact h.context rfl (.inl rfl)

theorem State.RangeLaw.takeCreepTarget {s : State} (h : s.RangeLaw) (x : Int) :
    (s.takeCreepTarget x).RangeLaw := by
  unfold State.takeCreepTarget
  repeat' split
  · refine State.RangeLaw.retarget ?_ _ _
    exact h.context rfl (.inl rfl)
  all_goals exact h

theorem State.RangeLaw.reference {s : State} (h : s.RangeLaw) (x : Int) (zones : PerCar (List Zone)) :
    (s.reference x zones).RangeLaw := by
  unfold State.reference
  simp only
  generalize hu : State.evalDisagree _ = u
  have hr : u.RangeLaw := by subst hu; exact h.context rfl (.inl rfl)
  exact (hr.takeCreepTarget x).context rfl (.inl rfl)

theorem State.RangeLaw.takeReports {s : State} (h : s.RangeLaw) (rs : List Report) :
    (s.takeReports rs).RangeLaw :=
  h.context (s.takeReports_settles rs).outer.store (s.takeReports_context rs)

theorem State.RangeLaw.detect {s : State} (h : s.RangeLaw) : s.detect.RangeLaw := by
  have h1 : s.returnToMain.RangeLaw := by
    unfold State.returnToMain
    split
    · exact h.context rfl (.inl rfl)
    · exact h
  have h2 (u : State) (hu : u.RangeLaw) : u.bankStep.RangeLaw :=
    hu.context u.bankStep_settles.outer.store (u.takeSources.takeOutputs_context u.slots)
  have h3 (u : State) (hu : u.RangeLaw) : u.failover.RangeLaw := by
    unfold State.failover
    split
    · refine State.RangeLaw.takeReports ?_ _
      exact hu.context rfl (.inl rfl)
    · exact hu
  have h4 (u : State) (hu : u.RangeLaw) : u.terminalReference.RangeLaw := by
    unfold State.terminalReference
    split
    · exact hu.reference _ _
    · exact hu
  have h5 (u : State) (hu : u.RangeLaw) : u.refresh.RangeLaw := by
    refine State.RangeLaw.takeReports ?_ _
    exact hu.context rfl (.inl rfl)
  exact h5 _ (h4 _ (h3 _ (h2 _ h1)))

theorem State.RangeLaw.runStep {s : State} (h : s.RangeLaw) : s.runStep.RangeLaw := by
  have hc (t : State) (c : SameContext s t) (o : Settles s t) : t.RangeLaw := h.context o.outer.store c
  unfold State.runStep
  repeat' split
  all_goals first
    | exact h
    | exact hc _ s.arbitrate_context s.arbitrate_settles
    | exact h.exitPreparing _
    | exact hc _ (s.enterState_context .running none none) s.enterRunning_settles
    | exact hc _ s.runSettling_context s.runSettling_settles
    | exact hc _ s.enterParked_context s.enterParked_settles
    | exact hc _ s.runFaultStopping_context s.runFaultStopping_settles
    | exact hc _ (s.enterState_context .parked none none) s.leaveFaultHeld_settles

/-- The settling of an event keeps the ranges. -/
theorem State.RangeLaw.settle {s : State} (h : s.RangeLaw) : s.settle.RangeLaw := by
  have key (n : Nat) (u : State) (hu : u.RangeLaw) : (State.rounds n u).RangeLaw := by
    induction n generalizing u with
    | zero => exact hu
    | succ n ih => exact ih _ hu.detect.runStep
  exact key 8 s h

/-! ## The lengths of lists and the counts of channels -/

/-- The lengths of the state's lists kept where they are those of the part, and the channels' counts. -/
structure Shapes (s t : State) : Prop where
  shape : s.ShapeLaw → t.ShapeLaw
  counts : ∀ ch, (t.chan.get ch).count = (s.chan.get ch).count

theorem Shapes.trans {s t u : State} (a : Shapes s t) (b : Shapes t u) : Shapes s u where
  shape h := b.shape (a.shape h)
  counts ch := (b.counts ch).trans (a.counts ch)

theorem Shapes.same {s t : State} (hi : t.inputs.length = s.inputs.length := by rfl)
    (hs : t.slots.length = s.slots.length := by rfl) (hz : t.reck.zones = s.reck.zones := by rfl)
    (hc : ∀ ch, (t.chan.get ch).count = (s.chan.get ch).count := by intro ch; rfl) : Shapes s t where
  shape h := by
    unfold State.ShapeLaw at h ⊢
    rw [hi, hs, hz]
    exact h
  counts := hc

theorem Shapes.refl (s : State) : Shapes s s := .same

theorem Steady.shapes {s t : State} (h : Steady s t) (o : Outer s t) : Shapes s t :=
  .same (by rw [o.inputs]) (by rw [h.slots]) (by rw [h.reck]) (by rw [h.chan]; intro; rfl)

theorem State.zipIdx_map_length {α : Type} (f : Slot × Nat → α) (slots : List Slot) :
    (slots.zipIdx.map f).length = slots.length := by simp

theorem State.takeCreepTarget_shapes (s : State) (x : Int) : Shapes s (s.takeCreepTarget x) := by
  unfold State.takeCreepTarget
  repeat' split
  all_goals exact .same

theorem State.reference_shapes (s : State) (x : Int) {zones : PerCar (List Zone)}
    (h1 : zones.one.length = 24) (h2 : zones.two.length = 24) : Shapes s (s.reference x zones) := by
  unfold State.reference
  simp only
  generalize hu : State.evalDisagree _ = u
  have h0 : Shapes s u := by
    subst hu
    exact ⟨fun h => ⟨h.1, h.2.1, h1, h2⟩, fun ch => by cases ch <;> rfl⟩
  exact (h0.trans (u.takeCreepTarget_shapes x)).trans .same

theorem State.detect_shapes (s : State) : Shapes s s.detect := by
  have h1 : Shapes s s.returnToMain := by
    unfold State.returnToMain
    split
    · exact .same (hc := fun ch => by cases ch <;> rfl)
    · exact .refl s
  have h2 (u : State) : Shapes u u.bankStep :=
    (show Shapes u u.takeSources from .same (hs := State.zipIdx_map_length _ _)).trans
      ((State.takeOutputs_steady _ _).shapes (State.takeOutputs_settles _ _).outer)
  have h3 (u : State) : Shapes u u.failover := by
    unfold State.failover
    split
    · exact (show Shapes u (((u.modChan .alt fun c => c.rebase (u.chanPos .main)).setSource
        .alt).evalDisagree) from .same (hc := fun ch => by cases ch <;> rfl)).trans
        ((State.takeReports_steady _ _).shapes (State.takeReports_settles _ _).outer)
    · exact .refl u
  have h4 (u : State) : Shapes u u.terminalReference := by
    unfold State.terminalReference
    split
    · exact u.reference_shapes _ rfl rfl
    · exact .refl u
  exact ((((h1.trans (h2 _)).trans (h3 _)).trans (h4 _))).trans
    ((State.refresh_steady _).shapes (State.refresh_settles _).outer)

theorem State.settle_shapes (s : State) : Shapes s s.settle := by
  have key (n : Nat) (u : State) : Shapes u (State.rounds n u) := by
    induction n generalizing u with
    | zero => exact .refl u
    | succ n ih => exact (u.detect_shapes.trans
        ((State.runStep_steady _).shapes (State.runStep_settles _).outer)).trans (ih _)
  exact key 8 s

/-! ## Reactions of the blocks -/

/-- What a reaction of the blocks may do (`Settles`), with the ranges, lengths and counts kept. -/
structure Keeps (s t : State) : Prop where
  settles : Settles s t
  shapes : Shapes s t
  range : s.RangeLaw → t.RangeLaw

theorem Keeps.refl (s : State) : Keeps s s := ⟨.refl s, .refl s, id⟩

theorem Keeps.trans {s t u : State} (a : Keeps s t) (b : Keeps t u) : Keeps s u :=
  ⟨a.settles.trans b.settles, a.shapes.trans b.shapes, fun h => b.range (a.range h)⟩

/-- A steady reaction that keeps or discards the run context. -/
theorem Keeps.steady {s t : State} (h : Settles s t) (st : Steady s t) (c : SameContext s t) :
    Keeps s t := ⟨h, st.shapes h.outer, fun r => r.context h.outer.store c⟩

/-- A reaction that leaves lists, counts and run context. -/
theorem Keeps.of {s t : State} (h : Settles s t) (c : SameContext s t := by exact .inl rfl)
    (sh : Shapes s t := by exact .same) : Keeps s t := ⟨h, sh, fun r => r.context h.outer.store c⟩

theorem State.settle_keeps (s : State) : Keeps s s.settle :=
  ⟨s.settle_settles, s.settle_shapes, fun h => h.settle⟩

theorem State.detect_keeps (s : State) : Keeps s s.detect :=
  ⟨s.detect_settles, s.detect_shapes, fun h => h.detect⟩

theorem State.takeReports_keeps (s : State) (rs : List Report) : Keeps s (s.takeReports rs) :=
  .steady (s.takeReports_settles rs) (s.takeReports_steady rs) (s.takeReports_context rs)

theorem State.takeOutputs_keeps (s : State) (old : List Slot) : Keeps s (s.takeOutputs old) :=
  .steady (s.takeOutputs_settles old) (s.takeOutputs_steady old) (s.takeOutputs_context old)

theorem State.modRun_keeps (s : State) (f : RunControl → RunControl) : Keeps s (s.modRun f) :=
  .of (s.modRun_settles f)

theorem State.modBrk_keeps (s : State) (f : BrakeUnit → BrakeUnit) : Keeps s (s.modBrk f) :=
  .of (s.modBrk_settles f)

theorem State.apply_keeps (s : State) (w : BrakeSet) : Keeps s (s.apply w) :=
  .steady (s.apply_settles w) (s.apply_steady w) (.of (s.apply_prof w))

theorem State.classApply_keeps (s : State) : Keeps s s.classApply :=
  (s.apply_keeps _).trans (State.modBrk_keeps _ _)

theorem State.enterState_keeps (s : State) (st : RunState) (f : Option Flavour)
    (c : Option StopClass) : Keeps s (s.enterState st f c) :=
  .of (s.enterState_settles st f c) (s.enterState_context st f c)

theorem State.enterParked_keeps (s : State) : Keeps s s.enterParked :=
  .of s.enterParked_settles s.enterParked_context

theorem State.enterSettling_keeps (s : State) (f : Flavour) : Keeps s (s.enterSettling f) :=
  .of (s.enterSettling_settles f) (s.enterSettling_context f)

theorem State.enterReleasing_keeps (s : State) : Keeps s s.enterReleasing :=
  .of s.enterReleasing_settles (s.enterState_context .releasing none none)

theorem State.enterPreparing_keeps (s : State) (m : Mode) (d : Dir) (x : Option Stop)
    (ids : List Ident) : Keeps s (s.enterPreparing m d x ids) :=
  .steady (s.enterPreparing_settles m d x ids) (s.enterPreparing_steady m d x ids)
    (s.enterPreparing_context m d x ids)

theorem State.formTarget_keeps (s : State) (x : Stop) : Keeps s (s.formTarget x) :=
  .of (s.formTarget_settles x)

theorem State.reformTarget_keeps (s : State) : Keeps s s.reformTarget := by
  unfold State.reformTarget
  repeat' split
  all_goals first | exact .refl s | exact s.formTarget_keeps _

theorem State.retarget_keeps (s : State) (p : PerCar Int) (x : Int) : Keeps s (s.retarget p x) :=
  ⟨s.retarget_settles p x, .same, fun h => h.retarget p x⟩

theorem State.merge_keeps (s : State) : Keeps s s.merge :=
  ((s.modRun_keeps _).trans (State.formTarget_keeps _ _)).trans (State.retarget_keeps _ _ _)

theorem State.reference_keeps (s : State) (x : Int) {zones : PerCar (List Zone)}
    (h1 : zones.one.length = 24) (h2 : zones.two.length = 24) : Keeps s (s.reference x zones) :=
  ⟨s.reference_settles x zones, s.reference_shapes x h1 h2, fun h => h.reference x zones⟩

theorem State.decideChecks_settles (s : State) (due : Check → Bool) :
    Settles s (s.decideChecks due) := by
  have h0 := s.modBrk_settles fun u => { u with checks := u.checks.filter fun c => !due c }
  unfold State.decideChecks State.failChecks
  simp only
  generalize (s.modBrk fun u => { u with checks := u.checks.filter fun c => !due c }) = x at h0
  repeat' split
  · exact h0
  · exact ((h0.trans (x.report_settles _)).trans (State.apply_settles _ _)).trans (State.modBrk_settles _ _)
  · exact (h0.trans (x.report_settles _)).trans (State.modBrk_settles _ _)
  · exact (h0.trans (x.report_settles _)).trans (State.apply_settles _ _)
  · exact h0.trans (x.report_settles _)

theorem State.decideChecks_steady (s : State) (due : Check → Bool) :
    Steady s (s.decideChecks due) := by
  have h0 := s.modBrk_steady fun u => { u with checks := u.checks.filter fun c => !due c }
  unfold State.decideChecks State.failChecks
  simp only
  generalize (s.modBrk fun u => { u with checks := u.checks.filter fun c => !due c }) = x at h0
  repeat' split
  · exact h0
  · exact ((h0.trans (x.report_steady _)).trans (State.apply_steady _ _)).trans (State.modBrk_steady _ _)
  · exact (h0.trans (x.report_steady _)).trans (State.modBrk_steady _ _)
  · exact (h0.trans (x.report_steady _)).trans (State.apply_steady _ _)
  · exact h0.trans (x.report_steady _)

theorem State.decideChecks_keeps (s : State) (due : Check → Bool) : Keeps s (s.decideChecks due) :=
  .steady (s.decideChecks_settles due) (s.decideChecks_steady due) (s.decideChecks_context due)

theorem State.removeServed_keeps (s : State) (ids : List Ident) : Keeps s (s.removeServed ids) :=
  .of (s.removeServed_settles ids)

theorem State.removeEntries_keeps (s : State) (gone : Entry → Bool) :
    Keeps s (s.removeEntries gone) :=
  .of (Settles.shrink (by constructor <;> rfl) ((List.filter_sublist).map _) rfl rfl)

theorem State.wantArbitration_keeps (s : State) : Keeps s s.wantArbitration := s.modRun_keeps _

theorem State.arbitrating_keeps (s : State) : Keeps s s.arbitrating := by
  unfold State.arbitrating
  split
  · exact s.wantArbitration_keeps.trans (State.settle_keeps _)
  · exact .refl s

end Sys2Proof.Machine
end

section
/-!
What a command's body does, as a chain of a few kinds of change (`Reacts`): a reaction of the blocks, a change
of the store, a call taken into the queue, entries removed from the Active Fault Set, a correction, and
changes apart from all that the laws speak of.  Every body is shown to be such a chain once; a law is then
kept by every command as soon as each kind of change keeps it.
-/

namespace Sys2Proof.Machine

open Sys2Proof

set_option Elab.async false

/-! ## Kinds of change -/

/-- What a request may do to the store, short of starting a commit cycle: open, write or drop the staging
copy, or start the cycle of a constant write or of the lock. -/
inductive Store.Edits : Store → Store → Prop
  | opens (st : Store) : Edits st { st with staging := some st.active }
  | writes (st : Store) (o o' : OperatingSet) (c : ItemClass) (i : Nat) (v : List Byte) (code : ReplyCode) :
      st.staging = some o → o.writeItem c i v = some (o', code) → Edits st { st with staging := some o' }
  | drops (st : Store) : Edits st { st with staging := none }
  | constant (st : Store) (n : ConstName) (x : Int) : st.lock = false →
      Edits st { st with cycle := .constant n (fitted x n.range.1 n.range.2).1 }
  | locks (st : Store) : Edits st { st with cycle := .lock }

/-- What the answer to a request may do, short of starting a commit cycle. -/
inductive Answers : State → State → Prop
  | keeps {s t : State} : Keeps s t → Answers s t
  | fewer (s : State) (keep : FaultEntry → Bool) : Answers s { s with faults := s.faults.filter keep }
  | call (s : State) (id : Ident) (side : Side) : s.queueFull id = false →
      Answers s (s.takeCall id side)
  | edit (s : State) {st : Store} : Store.Edits s.store st → Answers s { s with store := st }
  | trans {s t u : State} : Answers s t → Answers t u → Answers s u

/-- A change apart from what the laws of queue, shape, faults, corrections and store speak of. -/
structure Apart (s t : State) : Prop where
  pending : t.pending = s.pending
  store : t.store = s.store
  queue : t.queue = s.queue
  faults : t.faults = s.faults
  corrections : t.reck.c = s.reck.c
  inputs : t.inputs.length = s.inputs.length
  slots : t.slots.length = s.slots.length
  zones : t.reck.zones = s.reck.zones
  context : t.prof.ctx = s.prof.ctx

/-- What the body of a command may do. -/
inductive Reacts : State → State → Prop
  | answers {s t : State} : Answers s t → Reacts s t
  | apart {s t : State} : Apart s t → Reacts s t
  | noted (s : State) : Reacts s s.markReported
  | matched (s : State) (k : Car) (j : Nat) (new : Int) :
      (0 ≤ s.settings.cMax → mag new ≤ s.settings.cMax) →
      Reacts s (s.modReck fun r =>
        { r.setZone k j .withinMatched with c := r.c.set k new, miss := r.miss.set k 0 })
  | startCommit (s : State) (o : OperatingSet) : s.store.staging = some o →
      Reacts s (s.modStore fun st => st.startCommit o)
  | endConstant (s : State) (n : ConstName) (v : Int) : s.store.cycle = .constant n v →
      Reacts s (s.modStore fun st => st.putConstant n v)
  | endLock (s : State) : s.store.cycle = .lock →
      Reacts s (s.modStore fun st => { st with lock := true, cycle := .idle })
  | endCommit (s : State) (o : OperatingSet) : s.store.cycle = .commit o →
      Reacts s ((s.modStore fun st => st.commit o).modReck fun r => r.replaceTable o.settings.cMax)
  | trans {s t u : State} : Reacts s t → Reacts t u → Reacts s u

theorem Answers.refl (s : State) : Answers s s := .keeps (.refl s)

theorem Keeps.reacts {s t : State} (h : Keeps s t) : Reacts s t := .answers (.keeps h)

theorem Reacts.refl (s : State) : Reacts s s := (Keeps.refl s).reacts

/-- A change apart, where each part is the same by unfolding. -/
theorem Reacts.same {s t : State} (hp : t.pending = s.pending := by rfl)
    (hs : t.store = s.store := by rfl) (hq : t.queue = s.queue := by rfl)
    (hf : t.faults = s.faults := by rfl) (hc : t.reck.c = s.reck.c := by rfl)
    (hi : t.inputs.length = s.inputs.length := by rfl)
    (hl : t.slots.length = s.slots.length := by rfl) (hz : t.reck.zones = s.reck.zones := by rfl)
    (hx : t.prof.ctx = s.prof.ctx := by rfl) : Reacts s t :=
  .apart ⟨hp, hs, hq, hf, hc, hi, hl, hz, hx⟩

theorem Reacts.foldl {α : Type} {f : State → α → State} (h : ∀ s a, Reacts s (f s a)) (l : List α) :
    ∀ s, Reacts s (l.foldl f s) := by
  induction l with
  | nil => exact fun s => .refl s
  | cons a l ih => exact fun s => (h s a).trans (ih _)

/-! ## Requests -/

theorem State.refuse_answers (s : State) (c : ReplyCode) : Answers s (s.refuse c).1 := .refl s

theorem Answers.answered {s t : State} (h : Answers s t) (r : Reply) : Answers s (t, r).1 := h

theorem State.accept_answers {s t : State} (h : Answers s t) : Answers s t.accept.1 := h

theorem State.takeRunRequest_answers (s : State) (id : Ident) (side : Side)
    (h : s.queueFull id = false) : Answers s (s.takeRunRequest id side).1 := by
  have hc := Answers.call s id side h
  unfold State.takeRunRequest
  split
  · exact hc.trans (.keeps (State.merge_keeps _))
  · exact hc.trans (.keeps (State.wantArbitration_keeps _))

theorem State.answerRun_answers (s : State) (cand : Option (Ident × Side)) :
    Answers s (s.answerRun cand).1 := by
  unfold State.answerRun
  split
  · exact .refl s
  · exact .refl s
  · split
    · exact .refl s
    next id side _ hf =>
      have h := s.takeRunRequest_answers id side (by simpa using hf)
      simp only
      split
      · exact h.trans (.keeps (State.settle_keeps _))
      · exact h

theorem State.answerCancel_answers (s : State) (pl : List Byte) : Answers s (s.answerCancel pl).1 := by
  have hr (gone : Entry → Bool) : Answers s (s.removeEntries gone).arbitrating :=
    .keeps ((s.removeEntries_keeps gone).trans (State.arbitrating_keeps _))
  unfold State.answerCancel
  split
  · unfold State.answerCancelEntry
    split
    · exact hr _
    · exact .refl s
  · exact hr _
  · unfold State.answerCancelRun
    split
    · exact State.accept_answers (.keeps (s.enterParked_keeps.trans (State.settle_keeps _)))
    · exact .refl s
  · exact .refl s

theorem State.answerSuspend_answers (s : State) : Answers s s.answerSuspend.1 := by
  unfold State.answerSuspend
  repeat' split
  all_goals first
    | exact .refl s
    | exact State.accept_answers (.keeps (s.enterState_keeps _ _ _))

theorem State.answerResume_answers (s : State) : Answers s s.answerResume.1 := by
  unfold State.answerResume
  split
  · exact State.accept_answers (.keeps (s.enterReleasing_keeps.trans (State.settle_keeps _)))
  · exact .refl s

theorem State.answerCreep_answers (s : State) (pl : List Byte) : Answers s (s.answerCreep pl).1 := by
  have hs (dir : Dir) (x : Option Stop) : Answers s (s.startCreep dir x).1 :=
    State.accept_answers (.keeps ((s.enterPreparing_keeps _ _ _ _).trans (State.settle_keeps _)))
  unfold State.answerCreep State.creepAllowed State.creepRefresh State.creepParked
  repeat' split
  · exact s.refuse_answers _
  · exact s.refuse_answers _
  · exact State.accept_answers (.keeps (s.modRun_keeps _))
  · exact s.refuse_answers _
  · exact s.refuse_answers _
  · exact s.refuse_answers _
  · exact hs _ _
  · exact s.refuse_answers _
  · exact hs _ _
  · exact s.refuse_answers _

theorem State.answerShuttle_answers (s : State) (pl : List Byte) :
    Answers s (s.answerShuttleStart pl).1 ∧ Answers s s.answerShuttleEnd.1 := by
  have hk (x : Shuttle) : Keeps s { s with shuttle := x } :=
    .of (Settles.blocks s s.chan s.slots x s.run s.target s.prof s.brk s.conds)
  constructor
  · unfold State.answerShuttleStart
    repeat' split
    · exact .refl s
    · exact .refl s
    · exact .keeps ((hk _).trans (State.arbitrating_keeps _))
  · unfold State.answerShuttleEnd
    split
    · exact .keeps (hk _)
    · exact .refl s

theorem State.answerAck_answers (s : State) (pl : List Byte) : Answers s (s.answerAck pl).1 := by
  have hf (keep : FaultEntry → Bool) :
      Answers s ({ s with faults := s.faults.filter keep } : State).settle :=
    (Answers.fewer s keep).trans (.keeps (State.settle_keeps _))
  unfold State.answerAck State.ackAll
  simp only
  split
  · exact (hf fun e => !e.eligible s.run.state).answered _
  split
  next k _ =>
    unfold State.ackKind
    repeat' split
    · exact s.refuse_answers _
    · exact s.refuse_answers _
    · exact s.refuse_answers _
    · exact s.refuse_answers _
    · exact State.accept_answers (hf fun f => decide (f.kind ≠ k))
  next => exact s.refuse_answers _

theorem State.answerEdit_answers (s : State) (pl : List Byte) :
    Answers s s.answerOpenEdit.1 ∧ Answers s (s.answerWriteItem pl).1
      ∧ Answers s (s.answerReadItem pl).1 ∧ Answers s s.answerAbandon.1 := by
  refine ⟨?_, ?_, ?_, ?_⟩
  · unfold State.answerOpenEdit
    repeat' split
    all_goals first | exact .refl s | exact .edit s (.opens _)
  · unfold State.answerWriteItem
    repeat' split
    next => exact .refl s
    next => exact .refl s
    next o ho _ c _ _ o' code hw => exact .edit s (.writes _ o o' c _ _ code ho hw)
    next => exact .refl s
  · unfold State.answerReadItem
    repeat' split
    all_goals exact .refl s
  · unfold State.answerAbandon
    split
    · exact (Answers.edit s (.drops _)).trans (.keeps (State.arbitrating_keeps _))
    · exact .refl s

theorem State.answerConstant_answers (s : State) (pl : List Byte) :
    Answers s (s.answerWriteConstant pl).1 ∧ Answers s (s.answerReadConstant pl).1
      ∧ Answers s s.answerLock.1 := by
  refine ⟨?_, ?_, ?_⟩
  · unfold State.answerWriteConstant
    split_ifs with _ hlock
    · exact .refl s
    · exact .refl s
    · exact .refl s
    · exact .refl s
    · split
      · exact .refl s
      · exact .edit s (.constant _ _ _ (by simpa using hlock))
  · unfold State.answerReadConstant
    repeat' split
    all_goals exact .refl s
  · unfold State.answerLock
    repeat' split
    all_goals first | exact .refl s | exact .edit s (.locks _)

/-- The answer to every request but COMMIT_EDIT. -/
theorem State.answer_answers (s : State) (p : Party) {t : MsgType} (ht : t ≠ .commitEdit)
    (pl : List Byte) : Answers s (s.answer p t pl).1 := by
  obtain ⟨hopen, hwrite, hread, habandon⟩ := s.answerEdit_answers pl
  obtain ⟨hconst, hreadConst, hlock⟩ := s.answerConstant_answers pl
  cases t
  case run | callLoop => exact s.answerRun_answers _
  case cancel => exact s.answerCancel_answers pl
  case suspend => exact s.answerSuspend_answers
  case resume => exact s.answerResume_answers
  case creep => exact s.answerCreep_answers pl
  case shuttleStart => exact (s.answerShuttle_answers pl).1
  case shuttleEnd => exact (s.answerShuttle_answers pl).2
  case ackFault => exact s.answerAck_answers pl
  case openEdit => exact hopen
  case writeItem => exact hwrite
  case readItem => exact hread
  case abandonEdit => exact habandon
  case writeConstant => exact hconst
  case readConstant => exact hreadConst
  case lockConstants => exact hlock
  case commitEdit => exact absurd rfl ht
  all_goals exact .refl s

/-- COMMIT_EDIT starts a commit cycle for the staging copy, or changes nothing (R197). -/
theorem State.answerCommit_cases (s : State) : s.answerCommit.1 = s
    ∨ ∃ o, s.store.staging = some o ∧ s.answerCommit.1 = s.modStore fun st => st.startCommit o := by
  unfold State.answerCommit
  repeat' split
  next => exact .inl rfl
  next => exact .inl rfl
  next => exact .inl rfl
  next o ho _ _ => exact .inr ⟨o, ho, rfl⟩

theorem State.answer_reacts (s : State) (p : Party) (t : MsgType) (pl : List Byte) :
    Reacts s (s.answer p t pl).1 := by
  by_cases ht : t = .commitEdit
  · subst ht
    rcases s.answerCommit_cases with h | ⟨o, ho, h⟩
    · show Reacts s s.answerCommit.1
      rw [h]; exact .refl s
    · show Reacts s s.answerCommit.1
      rw [h]; exact .startCommit s o ho
  · exact .answers (s.answer_answers p ht pl)

/-! ## Frames -/

theorem State.modLink_reacts (s : State) (p : Party) (f : Link → Link) : Reacts s (s.modLink p f) :=
  .same

theorem State.traffic_reacts (s : State) (p : Party) : Reacts s (s.traffic p) := by
  have h1 : Reacts s (s.restartTimer p) := s.modLink_reacts p _
  have h2 := h1.trans ((s.restartTimer p).modLink_reacts p fun l => { l with up := true })
  unfold State.traffic State.returnLink
  simp only
  repeat' split
  · exact h1
  · exact (h2.trans (State.wantArbitration_keeps _).reacts).trans (State.settle_keeps _).reacts
  · exact h2.trans (State.settle_keeps _).reacts

theorem State.takeMessage_reacts (s : State) (p : Party) (t : MsgType) (pl : List Byte) :
    Reacts s (s.takeMessage p t pl) := by
  have h (r : Records) : Reacts s ({ s with recs := r } : State).settle :=
    (show Reacts s { s with recs := r } from .same).trans (State.settle_keeps _).reacts
  unfold State.takeMessage
  repeat' split
  · exact h _
  · exact h _
  · exact h _
  · exact h _
  · exact .refl s
  · exact .refl s

theorem State.reply_reacts (s : State) (p : Party) (type : Byte) (pl : List Byte) (r : Reply) :
    Reacts s (s.reply p type pl r) := .same

theorem State.goodFrame_reacts (s : State) (p : Party) (type : Byte) (pl : List Byte) :
    Reacts s (s.goodFrame p type pl) := by
  have hreply {u : State} (h : Reacts s u) (r : Reply) : Reacts s (u.reply p type pl r) :=
    h.trans (u.reply_reacts p type pl r)
  have ht := s.traffic_reacts p
  unfold State.goodFrame State.takeFrame
  repeat' split
  · exact hreply ht _
  · exact hreply ht _
  · exact ht.trans (State.takeMessage_reacts _ _ _ _)
  · exact hreply ht _
  · exact (ht.trans (State.answer_reacts _ _ _ _)).trans (State.reply_reacts _ _ _ _ _)

theorem State.takeChar_reacts (s : State) (p : Party) (b : Byte) : Reacts s (s.takeChar p b) := by
  unfold State.takeChar State.checkedFrame
  repeat' split
  · exact .refl s
  · exact s.modLink_reacts _ _
  · exact (s.modLink_reacts _ _).trans (State.goodFrame_reacts _ _ _ _)
  · exact s.modLink_reacts _ _

/-! ## The field interface and the sample -/

theorem mag_clamp_le {x b : Int} (hb : 0 ≤ b) : mag (clamp x (-b) b) ≤ b := by
  unfold clamp
  split_ifs <;> rw [mag_le_iff] <;> omega

theorem State.matchEdge_reacts (s : State) (c : Checkpoint) (j : Nat) (k : Car) :
    Reacts s (s.matchEdge c j k) := by
  unfold State.matchEdge
  simp only
  have h := Reacts.matched s k j
    (clamp (s.reck.c.get k + (c.pos - s.edgePosition k)) (-s.settings.cMax) s.settings.cMax) mag_clamp_le
  repeat' split
  · exact .refl s
  · exact h
  · exact h.trans (State.reformTarget_keeps _).reacts

theorem Zone.set_length (k : Car) (j : Nat) (z : Zone) :
    (Zone.none.set k ((Zone.none.get k).set j z)).one.length = 24
      ∧ (Zone.none.set k ((Zone.none.get k).set j z)).two.length = 24 := by
  cases k <;> simp [Zone.none, PerCar.set, PerCar.get]

theorem State.inputEdge_reacts (s : State) (n : Fin 32) : Reacts s (s.inputEdge n) := by
  unfold State.inputEdge State.checkpointEdge State.matchedEdge State.branchReference
  repeat' split
  all_goals first
    | exact s.matchEdge_reacts _ _ _
    | exact (s.takeReports_keeps _).reacts
    | exact (s.reference_keeps _ (Zone.set_length _ _ _).1 (Zone.set_length _ _ _).2).reacts
    | exact .refl s

theorem State.seenLevels_length (s : State) (seen : List (Fin 32 × Nat)) :
    (s.seenLevels seen).length = s.inputs.length := by
  unfold State.seenLevels
  induction seen generalizing s with
  | nil => rfl
  | cons nv seen ih =>
    rw [List.foldl_cons]
    have := ih { s with inputs := s.inputs.set nv.1.val (levelOf nv.2 (s.inputs.getD nv.1.val false)) }
    simpa using this

theorem State.seeInputs_reacts (seen : List (Fin 32 × Nat)) (s : State) :
    Reacts s (State.seeInputs seen s) := by
  have h : Reacts s { s with inputs := s.seenLevels seen } := .same (hi := s.seenLevels_length seen)
  exact (h.trans (Reacts.foldl State.inputEdge_reacts _ _)).trans (State.settle_keeps _).reacts

theorem State.missPass_keeps (s : State) (k : Car) : Keeps s (s.missPass k) :=
  (Keeps.of (s.modReck_settles _ rfl rfl)).trans (State.takeReports_keeps _ _)

theorem Keeps.foldl {α : Type} {f : State → α → State} (h : ∀ s a, Keeps s (f s a)) (l : List α) :
    ∀ s, Keeps s (l.foldl f s) := by
  induction l with
  | nil => exact fun s => .refl s
  | cons a l ih => exact fun s => (h s a).trans (ih _)

theorem State.passTests_keeps (s : State) (new : Sample) : Keeps s (s.passTests new) := by
  have h (k : Car) (u : State) (cj : Checkpoint × Nat) : Keeps u (State.passTest new k u cj) := by
    unfold State.passTest
    split
    · exact u.missPass_keeps k
    · exact .refl u
  unfold State.passTests
  split
  · exact (Keeps.foldl (h .one) _ _).trans (Keeps.foldl (h .two) _ _)
  · exact .refl s

theorem OperatingSet.zonesAt_length (o : OperatingSet) (k : Car) (p : Int) (zones : List Zone) :
    (o.zonesAt k p zones).length = zones.length := by simp [OperatingSet.zonesAt]

theorem State.updateZones_keeps (s : State) (new : Sample) : Keeps s (s.updateZones new) where
  settles := by unfold State.updateZones; exact s.modReck_settles _ rfl rfl
  shapes :=
    ⟨fun ⟨hi, hs, h1, h2⟩ => ⟨hi, hs, (OperatingSet.zonesAt_length _ _ _ _).trans h1,
      (OperatingSet.zonesAt_length _ _ _ _).trans h2⟩, fun _ => rfl⟩
  range h := h.context rfl (.inl rfl)

theorem State.sampleTests_keeps (s : State) (new : Sample) : Keeps s (s.sampleTests new) := by
  unfold State.sampleTests
  split
  · exact ((s.passTests_keeps new).trans (State.updateZones_keeps _ new)).trans
      (.of (State.modReck_settles _ _ rfl rfl))
  · exact .refl s

theorem State.updateConditions_reacts (s : State) : Reacts s s.updateConditions := by
  unfold State.updateConditions State.restartStall
  simp only
  split <;> exact .same

theorem State.reckonSample_reacts (s : State) : Reacts s s.reckonSample := by
  have h : Reacts s s.scheduleSample.formSpeeds := .same
  unfold State.reckonSample
  simp only
  exact (((h.trans (State.updateConditions_reacts _)).trans (State.detect_keeps _).reacts).trans
    (State.sampleTests_keeps _ _).reacts).trans .same

theorem State.permit_reacts (s : State) : Reacts s s.permit := by
  unfold State.permit
  simp only
  split <;> exact .same

theorem State.sampleStandstill_keeps (s : State) : Keeps s s.sampleStandstill := by
  unfold State.sampleStandstill
  repeat' split
  all_goals exact s.modRun_keeps _

theorem State.testDistance_keeps (s : State) : Keeps s s.testDistance :=
  .steady s.testDistance_settles s.testDistance_steady s.testDistance_context

theorem State.endSuspendRamp_keeps (s : State) : Keeps s s.endSuspendRamp :=
  .steady s.endSuspendRamp_settles s.endSuspendRamp_steady s.endSuspendRamp_context

theorem State.controlSample_keeps (s : State) : Keeps s s.controlSample :=
  (s.sampleStandstill_keeps.trans (State.testDistance_keeps _)).trans (State.settle_keeps _)

theorem State.supervise_reacts (s : State) : Reacts s s.supervise := by
  unfold State.supervise
  split
  · exact .same
  · exact .refl s

theorem State.takePublished_reacts (s : State) : Reacts s s.takePublished := by
  have hf (u : State) : Reacts u u.formReference := .same
  have hd (u : State) : Reacts u u.sendDrive := .same
  exact (((((s.permit_reacts.trans (State.controlSample_keeps _).reacts).trans (hf _)).trans
    (State.endSuspendRamp_keeps _).reacts).trans (hd _)).trans (State.supervise_reacts _))

theorem State.takeSample_reacts (s : State) : Reacts s s.takeSample := by
  unfold State.takeSample
  split
  · exact ((s.reckonSample_reacts.trans (State.takePublished_reacts _)).trans
      (State.decideChecks_keeps _ _).reacts).trans (State.settle_keeps _).reacts
  · exact .refl s

/-! ## Timers -/

theorem State.expireStandstill_keeps (s : State) : Keeps s s.expireStandstill := by
  unfold State.expireStandstill
  split <;> exact s.modRun_keeps _

theorem State.expireSlots_keeps (s : State) (which : List (Fin 14)) :
    Keeps s (s.expireSlots which) :=
  .of (s.expireSlots_settles which) (sh := .same (hs := State.zipIdx_map_length _ _))

theorem State.restartSlots_keeps (s : State) : Keeps s s.restartSlots :=
  .of s.restartSlots_settles (sh := .same (hs := State.zipIdx_map_length _ _))

theorem State.takeFilterExpiry_keeps (which : List (Fin 14)) (s : State) :
    Keeps s (State.takeFilterExpiry which s) :=
  ((s.expireSlots_keeps which).trans (State.takeOutputs_keeps _ _)).trans (State.settle_keeps _)

theorem State.expireChecks_keeps (s : State) : Keeps s s.expireChecks := by
  unfold State.expireChecks
  split
  · exact s.modBrk_keeps _
  · exact (s.decideChecks_keeps _).trans (State.settle_keeps _)

theorem State.takePrepareExpiry_keeps (s : State) : Keeps s s.takePrepareExpiry := by
  unfold State.takePrepareExpiry
  split
  · exact (((s.removeServed_keeps _).trans (State.enterParked_keeps _)).trans
      (State.takeReports_keeps _ _)).trans (State.settle_keeps _)
  · exact .refl s

theorem State.lapse_keeps (s : State) : Keeps s s.lapse := by
  unfold State.lapse
  split
  · exact s.enterParked_keeps.trans (State.settle_keeps _)
  · exact (s.enterSettling_keeps _).trans (State.settle_keeps _)
  · exact (s.enterSettling_keeps _).trans (State.settle_keeps _)
  · exact (s.enterSettling_keeps _).trans (State.settle_keeps _)
  · exact s.modRun_keeps _

/-- The body of each timer of the run and of the brakes is a reaction of the blocks. -/
theorem State.timers_keep (s : State) : Keeps s s.takeStandstill ∧ Keeps s s.takeDwellExpiry
    ∧ Keeps s s.takeCreepLapse ∧ Keeps s s.takeReleaseExpiry ∧ Keeps s s.takeApplyExpiry
    ∧ Keeps s s.takeQuickStop := by
  have hb (f : BrakeUnit → BrakeUnit) (r : Report) : Keeps s ((s.modBrk f).report r).settle :=
    ((s.modBrk_keeps f).trans (State.takeReports_keeps _ _)).trans (State.settle_keeps _)
  refine ⟨?_, ?_, ?_, ?_, ?_, ?_⟩
  · unfold State.takeStandstill
    split
    · exact s.expireStandstill_keeps.trans (State.settle_keeps _)
    · exact .refl s
  · unfold State.takeDwellExpiry
    split
    · exact (s.modRun_keeps _).trans (State.settle_keeps _)
    · exact .refl s
  · unfold State.takeCreepLapse
    split
    · exact s.lapse_keeps
    · exact .refl s
  · unfold State.takeReleaseExpiry
    simp only
    split
    · exact hb _ _
    · exact .refl s
  · unfold State.takeApplyExpiry
    simp only
    split
    · exact hb _ _
    · exact .refl s
  · unfold State.takeQuickStop
    split
    · exact s.classApply_keeps.trans (State.settle_keeps _)
    · exact .refl s

/-! ## Links and messages -/

theorem State.loseLink_reacts (s : State) (p : Party) : Reacts s (s.loseLink p) := by
  have h : Reacts s { s.loseLink p with store := s.store } := .same
  unfold State.loseLink at h ⊢
  by_cases hp : p = .console
  · simp only [hp, if_true] at h ⊢
    exact h.trans (.answers (.edit _ (.drops _)))
  · simp only [if_neg hp] at h ⊢
    exact h

theorem State.takeLinkTimeout_reacts (p : Party) (s : State) :
    Reacts s (State.takeLinkTimeout p s) := by
  unfold State.takeLinkTimeout
  repeat' split
  · exact (s.loseLink_reacts p).trans (State.settle_keeps _).reacts
  · exact s.modLink_reacts _ _
  · exact .refl s

theorem State.takeStatusTimer_reacts (s : State) : Reacts s s.takeStatusTimer := by
  unfold State.takeStatusTimer
  split
  · exact (Reacts.noted s).trans .same
  · exact .refl s

theorem Sends.reacts {s t : State} (h : Sends s t) : Reacts s t :=
  .apart ⟨h.pending, h.store, h.queue, h.faults, by rw [h.reck], by rw [h.inputs], by rw [h.slots],
    by rw [h.reck], by rw [h.prof]⟩

theorem State.periods_react (s : State) (k : Car) :
    Reacts s (State.takeCarPeriod k s) ∧ Reacts s s.takeLoopPeriod := by
  constructor
  · unfold State.takeCarPeriod
    split
    · exact (s.sendCar_sends k).reacts
    · exact .refl s
  · unfold State.takeLoopPeriod
    split
    · exact s.sendLoop_sends.reacts
    · exact .refl s

/-! ## Store cycles -/

theorem State.scaleRebase_reacts (s : State) (n : ConstName) (v : Int) :
    Reacts s (s.scaleRebase n v) ∧ (s.scaleRebase n v).store = s.store := by
  unfold State.scaleRebase
  repeat' split
  · exact ⟨.refl s, rfl⟩
  · exact ⟨.same, rfl⟩
  · exact ⟨.refl s, rfl⟩

theorem State.takeConstantEnd_reacts (s : State) : Reacts s s.takeConstantEnd := by
  unfold State.takeConstantEnd
  split
  next n v hc =>
    obtain ⟨h1, hs⟩ := s.scaleRebase_reacts n v
    have h2 := h1.trans (.endConstant _ n v (by rw [hs, hc]))
    have h3 (u : State) : Reacts u (u.limitLoads n) := by
      unfold State.limitLoads
      split
      · exact .same
      · exact .refl u
    exact (h2.trans (h3 _)).trans (State.settle_keeps _).reacts
  next => exact .refl s

theorem State.takeLockEnd_reacts (s : State) : Reacts s s.takeLockEnd := by
  unfold State.takeLockEnd
  split
  next hc =>
    exact ((Reacts.endLock s hc).trans (State.wantArbitration_keeps _).reacts).trans
      (State.settle_keeps _).reacts
  next => exact .refl s

theorem State.restartTimers_reacts (s : State) : Reacts s s.restartTimers :=
  Reacts.foldl (f := State.restartTimer) (fun u p => u.modLink_reacts p _) _ s

theorem State.takeCommitEnd_reacts (s : State) : Reacts s s.takeCommitEnd := by
  unfold State.takeCommitEnd
  split
  next o hc =>
    have h1 := (Reacts.endCommit s o hc).trans (State.restartTimers_reacts _)
    unfold State.completeCommit
    simp only
    exact (((((h1.trans .same).trans (State.restartSlots_keeps _).reacts).trans
      (State.takeOutputs_keeps _ _).reacts).trans (State.wantArbitration_keeps _).reacts).trans
      (State.settle_keeps _).reacts)
  next => exact .refl s

/-! ## Commands -/

/-- The body of every command is a chain of the changes named. -/
theorem body_reacts (c : Instr) (s : State) : Reacts s (c.body s) := by
  obtain ⟨hstand, hdwell, hcreep, hrelease, happly, hquick⟩ := s.timers_keep
  unfold Instr.body
  split
  · exact Reacts.foldl (f := State.takeChar _) (fun u b => u.takeChar_reacts _ b) _ s
  · cases c
    case encoderEdge dt ch sense => exact .same
    case inputLevelChange => exact State.seeInputs_reacts _ s
    case sampleTimerExpiry => exact s.takeSample_reacts
    case standstillTimerExpiry => exact hstand.reacts
    case filterTimerExpiry => exact (State.takeFilterExpiry_keeps _ s).reacts
    case prepareTimerExpiry => exact s.takePrepareExpiry_keeps.reacts
    case dwellTimerExpiry => exact hdwell.reacts
    case creepHoldLapse => exact hcreep.reacts
    case brakeReleaseDeadlineExpiry => exact hrelease.reacts
    case brakeApplyDeadlineExpiry => exact happly.reacts
    case effectivenessCheckExpiry => exact s.expireChecks_keeps.reacts
    case quickStopTimerExpiry => exact hquick.reacts
    case linkTimeout => exact State.takeLinkTimeout_reacts _ s
    case frameGapTimeout | missingStopBit | transmitComplete => exact s.modLink_reacts _ _
    case constantWriteComplete => exact s.takeConstantEnd_reacts
    case lockCycleComplete => exact s.takeLockEnd_reacts
    case commitCycleComplete => exact s.takeCommitEnd_reacts
    case statusTimerExpiry => exact s.takeStatusTimer_reacts
    case carCommandPeriodExpiry => exact (s.periods_react _).1
    case loopCommandPeriodExpiry => exact (s.periods_react .one).2
    all_goals exact .refl s

/-- The event of every command is a chain of the changes named. -/
theorem event_reacts (c : Instr) (s : State) : Reacts s (s.event c.elapsed c.body) := by
  unfold State.event
  split
  · exact .refl s
  · exact ((show Reacts s (s.advance _) from .same).trans (body_reacts c _)).trans
      (State.announce_sends _ _).reacts

/-- A start-up is a chain of those changes from the after-reset state. -/
theorem State.startUp_reacts (s : State) :
    Reacts (State.fresh s.pending s.store.startUp) s.startUp :=
  (((State.restartSlots_keeps _).trans (State.takeOutputs_keeps _ _)).trans
    (State.settle_keeps _)).reacts.trans (State.announce_sends _ _).reacts

/-- A law that the changes named keep, and that the after-reset state of its store has, is kept by every
step. -/
theorem Reacts.step_keeps {P : State → Prop} (hpending : ∀ s rest, P s → P { s with pending := rest })
    (hfresh : ∀ s, P s → P (State.fresh s.pending s.store.startUp))
    (hreacts : ∀ s t, Reacts s t → P s → P t) {s t : State} (hs : P s) (h : step s = .next t) : P t := by
  refine Machine.step_keeps hpending (fun u hu => ?_) (fun dt u hu => ?_) (fun c u hu => ?_) hs h
  · exact hreacts _ _ u.startUp_reacts (hfresh u hu)
  · exact hreacts u _ .same hu
  · exact hreacts _ _ (event_reacts c u) hu

/-- No body changes the commands that wait. -/
theorem Reacts.pending {s t : State} (h : Reacts s t) : t.pending = s.pending := by
  have hanswers {s t : State} (h : Answers s t) : t.pending = s.pending := by
    induction h with
    | keeps h => exact h.settles.outer.pending
    | fewer | edit => rfl
    | call s id side _ =>
      unfold State.takeCall State.addServed
      repeat' split
      all_goals rfl
    | trans _ _ a b => exact b.trans a
  induction h with
  | answers h => exact hanswers h
  | apart h => exact h.pending
  | trans _ _ a b => exact b.trans a
  | noted | matched | startCommit | endConstant | endLock | endCommit => rfl

/-- Settles O2: every command is RESET, HELD_IN_RESET or an event, and an event of a part held in reset is
none. -/
theorem everyCommandCompletes : Obligations.EveryCommandCompletes := by
  intro c s
  refine exec_cases (P := fun c s t => t.pending = s.pending ∧ (s.Quiet → t.Quiet)
    ∧ (s.held = true → c ≠ .reset → (∀ dt, c ≠ .heldInReset dt) → t = s)) ?_ ?_ ?_ c s
  · exact fun s => ⟨s.startUp_reacts.pending, fun _ => State.announce_quiet _ _,
      fun _ h => absurd rfl h⟩
  · exact fun dt s => ⟨rfl, id, fun _ _ h => absurd rfl (h dt)⟩
  · exact fun c s _ _ => ⟨(event_reacts c s).pending, fun hq => State.event_quiet hq _ _,
      fun hh _ _ => State.event_held hh _ _⟩

end Sys2Proof.Machine
end

section
/-!
The items of the Operating Set: what a WRITE_ITEM that is not refused changes (`Written`), that a set keeps
its ranges and its classes, and that what was written reads back.
-/

namespace Sys2Proof.Machine

open Sys2Proof

set_option Elab.async false

/-! ## Fields -/

theorem fitted_within {x lo hi : Int} (h : lo ≤ hi) : within (fitted x lo hi).1 (lo, hi) := by
  rw [fitted_value h]
  exact ⟨le_max_left _ _, max_le h (min_le_left _ _)⟩

theorem fitted_kept {x lo hi : Int} (h : (fitted x lo hi).2 = false) : (fitted x lo hi).1 = x := by
  simpa [fitted] using h

theorem writeCode_accepted {b : Bool} (h : writeCode b = .accepted) : b = false := by
  cases b
  · rfl
  · exact absurd h (by decide)

theorem writeCode_cases (b : Bool) : writeCode b = .accepted ∨ writeCode b = .clamped := by
  cases b
  · exact .inl rfl
  · exact .inr rfl

theorem finOf_val {n b : Nat} {x : Fin b} (h : finOf n b = some x) : x.val = n := by
  unfold finOf at h
  split at h
  · cases h; rfl
  · cases h

theorem getUnsigned_le (bs : List Byte) : getUnsigned bs < 256 ^ bs.length := by
  have h (n : Nat) : bs.foldl (fun n b => n * 256 + b.toNat) n < (n + 1) * 256 ^ bs.length := by
    induction bs generalizing n with
    | nil => simp
    | cons b bs ih =>
      rw [List.foldl_cons, List.length_cons, pow_succ']
      calc _ < (n * 256 + b.toNat + 1) * 256 ^ bs.length := ih _
        _ ≤ ((n + 1) * 256) * 256 ^ bs.length := Nat.mul_le_mul_right _ (by have := b.isLt; omega)
        _ = (n + 1) * (256 * 256 ^ bs.length) := Nat.mul_assoc _ _ _
  simpa [getUnsigned] using h 0

theorem fieldAt_two_le (v : List Byte) (i : Nat) : fieldAt v i 2 ≤ 65535 := by
  have h := getUnsigned_le (slice v i 2)
  have hl : (slice v i 2).length ≤ 2 := by simp [slice]
  have hp : 256 ^ (slice v i 2).length ≤ 256 ^ 2 := Nat.pow_le_pow_right (by omega) hl
  unfold fieldAt
  omega

/-! ## Settings -/

theorem settingRange_index {i : Nat} {r : Int × Int} (h : settingRange i = some r) : 1 ≤ i ∧ i ≤ 24 := by
  unfold settingRange at h
  split at h <;> first | (constructor <;> omega) | cases h

theorem settingRange_le {i : Nat} {r : Int × Int} (h : settingRange i = some r) : r.1 ≤ r.2 := by
  unfold settingRange at h
  split at h <;> cases h <;> decide

theorem Settings.get_put_same (t : Settings) {i : Nat} {r : Int × Int} (h : settingRange i = some r)
    (x : Int) : (t.put i x).get i = x := by
  obtain ⟨h1, h24⟩ := settingRange_index h
  interval_cases i <;> rfl

theorem Settings.get_put_other (t : Settings) {i j : Nat} (hij : j ≠ i) (x : Int) :
    (t.put i x).get j = t.get j := by
  unfold Settings.put
  split
  all_goals
    unfold Settings.get
    split
  all_goals first | rfl | exact absurd rfl hij

/-! ## What a write changes -/

/-- What a WRITE_ITEM that is not refused may make of a set, by its item class and index (R172, R195). -/
inductive Written (o : OperatingSet) : ItemClass → Nat → OperatingSet → Prop
  | segment (i : Nat) (g : Segment) : i < 48 → within g.start (0, 4000000) → within g.limit (300, 12000) →
      Written o .segment i { o with segs := o.segs.set i g }
  | checkpoint (i : Nat) (c : Checkpoint) : i < 24 → within c.pos (0, 4000000) → within c.tol (50, 2000) →
      Written o .checkpoint i { o with cps := o.cps.set i c }
  | stop (i : Nat) (x : Stop) (r : StopRecord) : Stop.ofCode i = some x → within r.mark1 (0, 4000000) →
      within r.mark2 (0, 4000000) → within r.window (20, 500) → Written o .stop i (o.putStop x r)
  | setting (i : Nat) (r : Int × Int) (x : Int) : settingRange i = some r → within x r →
      Written o .setting i { o with settings := o.settings.put i x }
  | filter (i : Nat) (f : FilterConfig) : i < 14 → f.setMs ≤ 65535 → f.clearMs ≤ 65535 →
      Written o .filter i { o with filters := o.filters.set i f }
  | classed (i : Nat) (k : FaultKind) (f c : StopClass) : FaultKind.ofCode i = some k → k.floor = some f →
      f.rank ≤ c.rank → Written o .class i { o with classes := o.classes.set (k.code - 1) c }
  | segmentCount (n : Int) : within n (1, 48) → Written o .segmentCount 0 { o with segCount := n.toNat }
  | checkpointCount (n : Int) : within n (0, 24) →
      Written o .checkpointCount 0 { o with cpCount := n.toNat }
  | held (i : Nat) : Written o .class i o

theorem FaultKind.ofCode_some {n : Nat} {k : FaultKind} (h : FaultKind.ofCode n = some k) :
    k.code = n := by
  unfold FaultKind.ofCode at h
  split_ifs at h with hn
  have hlt : n - 1 < 27 := (List.getElem?_eq_some_iff.1 h).1
  obtain ⟨m, rfl⟩ : ∃ m, n = m + 1 := ⟨n - 1, by omega⟩
  have hm : m < 27 := hlt
  interval_cases m <;> cases h <;> rfl

theorem OperatingSet.writeItem_written {o o' : OperatingSet} {c : ItemClass} {i : Nat} {v : List Byte}
    {code : ReplyCode} (h : o.writeItem c i v = some (o', code)) : Written o c i o' := by
  have hpos (x : Int) : within (fitted x 0 4000000).1 (0, 4000000) := fitted_within (by decide)
  cases c
  case segment =>
    change o.writeSegment i v = _ at h
    unfold OperatingSet.writeSegment at h
    split_ifs at h with hi
    split at h
    · have hlimit := fitted_within (x := fieldAt v 4 2) (lo := 300) (hi := 12000) (by decide)
      cases h
      refine .segment i _ hi (hpos (fieldAt v 0 4)) ?_
      dsimp only
      exact hlimit
    · cases h
  case checkpoint =>
    change o.writeCheckpoint i v = _ at h
    unfold OperatingSet.writeCheckpoint at h
    split_ifs at h with hi
    split at h
    · cases h
      exact .checkpoint i _ hi (hpos (fieldAt v 0 4)) (fitted_within (x := fieldAt v 6 2) (lo := 50) (hi := 2000) (by decide))
    · cases h
  case stop =>
    change o.writeStop i v = _ at h
    unfold OperatingSet.writeStop at h
    split at h
    · cases h
      exact .stop _ _ _ ‹_› (hpos (fieldAt v 0 4)) (hpos (fieldAt v 4 4))
        (fitted_within (x := fieldAt v 8 2) (lo := 20) (hi := 500) (by decide))
    · cases h
  case setting =>
    change o.writeSetting i v = _ at h
    unfold OperatingSet.writeSetting at h
    split at h
    next lo hi hr =>
      cases h
      exact .setting i _ _ hr (fitted_within (settingRange_le hr))
    next => cases h
  case filter =>
    change o.writeFilter i v = _ at h
    unfold OperatingSet.writeFilter at h
    split_ifs at h with hi
    split at h
    · cases h
      exact .filter i _ hi (fieldAt_two_le _ _) (fieldAt_two_le _ _)
    · cases h
  case segmentCount =>
    change o.writeSegCount i v = _ at h
    unfold OperatingSet.writeSegCount at h
    split_ifs at h with hi
    cases h
    subst hi
    exact .segmentCount _ (fitted_within (by decide))
  case checkpointCount =>
    change o.writeCpCount i v = _ at h
    unfold OperatingSet.writeCpCount at h
    split_ifs at h with hi
    cases h
    subst hi
    exact .checkpointCount _ (fitted_within (by decide))
  next =>
    change o.writeClass i v = _ at h
    unfold OperatingSet.writeClass at h
    split at h
    next k c hk _ =>
      split at h
      next f hf =>
        split_ifs at h with hc
        · cases h; exact .held _
        · cases h
          have := Written.classed (o := o) i k f c hk hf (by omega)
          rwa [FaultKind.ofCode_some hk] at this
      next => cases h; exact .held _
    next => cases h

/-! ## The laws of a set -/

theorem OperatingSet.stopRec_putStop (o : OperatingSet) (x y : Stop) (r : StopRecord) :
    (o.putStop x r).stopRec y = if y = x then r else o.stopRec y := by
  cases x <;> cases y <;> rfl

/-- A write takes no field out of its range (R195). -/
theorem Written.range {o o' : OperatingSet} {c : ItemClass} {i : Nat} (h : Written o c i o') (hr : o.RangeLaw) : o'.RangeLaw := by
  cases h with
  | segment i g _ hs hl =>
    refine { hr with segSlots := by simpa using hr.segSlots, segs := fun x hx => ?_ }
    rcases List.mem_or_eq_of_mem_set hx with hx | rfl
    · exact hr.segs x hx
    · exact ⟨hs, hl⟩
  | checkpoint i c _ hp ht =>
    refine { hr with cpSlots := by simpa using hr.cpSlots, cps := fun x hx => ?_ }
    rcases List.mem_or_eq_of_mem_set hx with hx | rfl
    · exact hr.cps x hx
    · exact ⟨hp, ht⟩
  | stop _ x r _ h1 h2 hw =>
    have hstops (y : Stop) : within ((o.putStop x r).stopRec y).mark1 (0, 4000000)
        ∧ within ((o.putStop x r).stopRec y).mark2 (0, 4000000)
        ∧ within ((o.putStop x r).stopRec y).window (20, 500) := by
      rw [OperatingSet.stopRec_putStop]
      split_ifs
      · exact ⟨h1, h2, hw⟩
      · exact hr.stops y
    cases x <;> exact { hr with stops := hstops }
  | setting i r x hi hx =>
    refine { hr with settings := fun j r' hj => ?_ }
    by_cases hij : j = i
    · subst hij
      rw [hi] at hj
      cases hj
      rw [Settings.get_put_same _ hi]
      exact hx
    · rw [Settings.get_put_other _ hij]
      exact hr.settings j r' hj
  | filter i f _ hs hc =>
    refine { hr with filterSlots := by simpa using hr.filterSlots, filters := fun x hx => ?_ }
    rcases List.mem_or_eq_of_mem_set hx with hx | rfl
    · exact hr.filters x hx
    · exact ⟨hs, hc⟩
  | classed => exact { hr with }
  | segmentCount n hn =>
    obtain ⟨h1, h48⟩ := hn
    exact { hr with segCount := by dsimp at h1 h48 ⊢; omega }
  | checkpointCount n hn =>
    obtain ⟨h0, h24⟩ := hn
    exact { hr with cpCount := by dsimp at h0 h24 ⊢; omega }
  | held => exact hr

theorem FaultKind.code_bounds (k : FaultKind) : 1 ≤ k.code ∧ k.code ≤ 27 := by
  cases k <;> decide

theorem OperatingSet.classOf_set {o : OperatingSet} (h : o.classes.length = 27) (k j : FaultKind)
    (c : StopClass) : ({ o with classes := o.classes.set (k.code - 1) c } : OperatingSet).classOf j
      = if j = k then c else o.classOf j := by
  obtain ⟨h1, h27⟩ := k.code_bounds
  obtain ⟨g1, g27⟩ := j.code_bounds
  unfold OperatingSet.classOf
  by_cases hjk : j = k
  · subst hjk
    simp [List.getD_eq_getElem?_getD, h, show j.code - 1 < 27 by omega]
  · have : k.code - 1 ≠ j.code - 1 := fun e => hjk (FaultKind.code_injective _ _ (by omega))
    simp [List.getD_eq_getElem?_getD, hjk, this]

/-- A write takes no class below its floor, and none of a kind whose floor is fixed (R172). -/
theorem Written.class_law {o o' : OperatingSet} {c : ItemClass} {i : Nat} (h : Written o c i o') (hc : o.ClassLaw) : o'.ClassLaw := by
  cases h with
  | classed _ k f c _ hf hrank =>
    refine ⟨by simpa using hc.1, fun j => ?_⟩
    rw [OperatingSet.classOf_set hc.1]
    split_ifs with hjk
    · subst hjk
      exact ⟨by simpa [FaultKind.leastClass, hf] using hrank, fun hn => by rw [hf] at hn; cases hn⟩
    · exact hc.2 j
  | stop _ x => cases x <;> exact hc
  | _ => exact hc

/-- A write leaves C_max not negative (R193). -/
theorem Written.bound {o o' : OperatingSet} {c : ItemClass} {i : Nat} (h : Written o c i o') (hb : 0 ≤ o.settings.cMax) :
    0 ≤ o'.settings.cMax := by
  cases h with
  | setting i r x hi hx =>
    show 0 ≤ (o.settings.put i x).get 10
    by_cases h10 : 10 = i
    · subst h10
      rw [Settings.get_put_same _ hi]
      cases hi
      exact le_trans (by decide) hx.1
    · rw [Settings.get_put_other _ h10]
      exact hb
  | stop _ x => cases x <;> exact hb
  | _ => exact hb

/-! ## Bytes -/

theorem putU16_getUnsigned (h l : Byte) : putU16 (getUnsigned [h, l]) = [h, l] := by
  have hh := h.isLt
  have hl := l.isLt
  rw [getUnsigned_two]
  simp only [putU16, List.cons.injEq, and_true]
  constructor <;> apply BitVec.eq_of_toNat_eq <;> rw [BitVec.toNat_ofNat] <;> omega

theorem putW32_append (b3 b2 b1 b0 : Byte) :
    putW32 (b3 ++ b2 ++ b1 ++ b0 : BitVec 32) = [b3, b2, b1, b0] := by
  unfold putW32
  simp only [List.cons.injEq, and_true]
  have h3 := b3.isLt
  have h2 := b2.isLt
  have h1 := b1.isLt
  have h0 := b0.isLt
  refine ⟨?_, ?_, ?_, ?_⟩ <;> apply BitVec.eq_of_toNat_eq
  all_goals
    rw [BitVec.extractLsb'_toNat, toNat_append_byte, toNat_append_byte, toNat_append_byte,
      Nat.shiftRight_eq_div_pow]
    omega

theorem putI32_getSigned32 (b3 b2 b1 b0 : Byte) :
    putI32 (getSigned32 [b3, b2, b1, b0]) = [b3, b2, b1, b0] := by
  rw [getSigned32_four]
  have hlow := BitVec.le_toInt (b3 ++ b2 ++ b1 ++ b0 : BitVec 32)
  have hhigh := BitVec.toInt_lt (x := (b3 ++ b2 ++ b1 ++ b0 : BitVec 32))
  unfold putI32
  rw [if_pos ⟨by simpa using hlow, by simpa using hhigh⟩, BitVec.ofInt_toInt, putW32_append]

theorem putI32_getUnsigned {b3 b2 b1 b0 : Byte} (h : getUnsigned [b3, b2, b1, b0] < 2 ^ 31) :
    putI32 (getUnsigned [b3, b2, b1, b0]) = [b3, b2, b1, b0] := by
  have : (getUnsigned [b3, b2, b1, b0] : Int) = getSigned32 [b3, b2, b1, b0] := by
    unfold getSigned32
    rw [BitVec.toInt_eq_toNat_of_lt] <;> rw [BitVec.toNat_ofNat] <;> omega
  rw [this, putI32_getSigned32]

theorem putI32_fieldAt {v : List Byte} {i : Nat} {b3 b2 b1 b0 : Byte}
    (hv : slice v i 4 = [b3, b2, b1, b0]) (h : (fieldAt v i 4 : Int) ≤ 4000000) :
    putI32 (fieldAt v i 4) = [b3, b2, b1, b0] := by
  unfold fieldAt at h ⊢
  rw [hv] at h ⊢
  exact putI32_getUnsigned (by omega)

theorem ofNat_byteAt (v : List Byte) (i : Nat) : BitVec.ofNat 8 (byteAt v i) = v.getD i 0 :=
  BitVec.ofNat_toNat _ _ |>.trans (BitVec.setWidth_eq _)

theorem SegKind.code_ofCode {n : Nat} {k : SegKind} (h : SegKind.ofCode n = some k) : k.code = n := by
  unfold SegKind.ofCode at h
  split at h <;> cases h <;> rfl

theorem Branch.code_ofCode {n : Nat} {k : Branch} (h : Branch.ofCode n = some k) : k.code = n := by
  unfold Branch.ofCode at h
  split at h <;> cases h <;> rfl

theorem StopClass.rank_ofCode {n : Nat} {k : StopClass} (h : StopClass.ofCode n = some k) :
    k.rank = n := by
  unfold StopClass.ofCode at h
  split at h <;> cases h <;> rfl

theorem SlotSource.code_ofCode {n : Nat} {k : SlotSource} (h : SlotSource.ofCode n = some k) :
    k.code = n := by
  unfold SlotSource.ofCode at h
  split at h
  case h_6 =>
    obtain ⟨x, hx, rfl⟩ := Option.map_eq_some_iff.1 h
    exact finOf_val hx
  all_goals cases h; rfl

theorem putBool_boolOf {v : List Byte} {i : Nat} {b : Bool} (h : boolOf (byteAt v i) = some b) :
    putBool b = [v.getD i 0] := by
  unfold boolOf at h
  rw [← ofNat_byteAt]
  split at h
  next h0 => cases h; rw [h0]; rfl
  next h1 => cases h; rw [h1]; rfl
  next => cases h

/-! ## Reading an item back -/

theorem Stop.ofCode_inj {i j : Nat} {x : Stop} (hi : Stop.ofCode i = some x)
    (hj : Stop.ofCode j = some x) : i = j := by
  unfold Stop.ofCode at hi hj
  split at hi <;> cases hi <;> split at hj <;> cases hj <;> rfl

/-- A write of one item changes no other (R195). -/
theorem Written.others {o o' : OperatingSet} {c c' : ItemClass} {i j : Nat} (h : Written o c i o')
    (hlen : o.classes.length = 27) (hne : c' ≠ c ∨ j ≠ i) : o'.readItem c' j = o.readItem c' j := by
  have hij (e : c' = c) : i ≠ j := fun e' => hne.elim (fun n => n e) fun n => n e'.symm
  cases h with
  | segment i g =>
    cases c'
    case segment => simp [OperatingSet.readItem, List.getD_eq_getElem?_getD, hij rfl]
    all_goals rfl
  | checkpoint i g =>
    cases c'
    case checkpoint => simp [OperatingSet.readItem, List.getD_eq_getElem?_getD, hij rfl]
    all_goals rfl
  | stop i x r hx =>
    cases c'
    case stop =>
      simp only [OperatingSet.readItem, OperatingSet.stopRec_putStop]
      cases hj : Stop.ofCode j with
      | none => rfl
      | some y =>
        have : y ≠ x := fun e => hij rfl (Stop.ofCode_inj hx (e ▸ hj))
        simp [this]
    all_goals cases x <;> rfl
  | setting i r x =>
    cases c'
    case setting => simp [OperatingSet.readItem, Settings.get_put_other _ (hij rfl).symm]
    all_goals rfl
  | filter i f =>
    cases c'
    case filter => simp [OperatingSet.readItem, OperatingSet.filter, List.getD_eq_getElem?_getD, hij rfl]
    all_goals rfl
  | classed i k f x hk =>
    cases c'
    case segment | checkpoint | stop | setting | filter | segmentCount | checkpointCount => rfl
    next =>
      simp only [OperatingSet.readItem, OperatingSet.classOf_set hlen]
      cases hj : FaultKind.ofCode j with
      | none => rfl
      | some y =>
        have : y ≠ k := fun e =>
          hij rfl (by rw [← FaultKind.ofCode_some hk, ← FaultKind.ofCode_some hj, e])
        simp [this]
  | segmentCount n =>
    cases c'
    case segmentCount => simp [OperatingSet.readItem, (hij rfl).symm]
    all_goals rfl
  | checkpointCount n =>
    cases c'
    case checkpointCount => simp [OperatingSet.readItem, (hij rfl).symm]
    all_goals rfl
  | held => rfl

/-- A write of an item that cannot be read is refused (R195, R196). -/
theorem OperatingSet.writeItem_none {o : OperatingSet} {c : ItemClass} {i : Nat} (v : List Byte)
    (h : o.readItem c i = none) : o.writeItem c i v = none := by
  cases c
  case segment =>
    have hi : ¬ i < 48 := fun hi => by simp [OperatingSet.readItem, hi] at h
    exact if_neg hi
  case checkpoint =>
    have hi : ¬ i < 24 := fun hi => by simp [OperatingSet.readItem, hi] at h
    exact if_neg hi
  case stop =>
    have hi : Stop.ofCode i = none := by simpa [OperatingSet.readItem] using h
    simp [OperatingSet.writeItem, OperatingSet.writeStop, hi]
  case setting =>
    have hi : settingRange i = none := by simpa [OperatingSet.readItem] using h
    simp [OperatingSet.writeItem, OperatingSet.writeSetting, hi]
  case filter =>
    have hi : ¬ i < 14 := fun hi => by simp [OperatingSet.readItem, hi] at h
    exact if_neg hi
  case segmentCount =>
    have hi : ¬ i = 0 := fun hi => by simp [OperatingSet.readItem, hi] at h
    exact if_neg hi
  case checkpointCount =>
    have hi : ¬ i = 0 := fun hi => by simp [OperatingSet.readItem, hi] at h
    exact if_neg hi
  next =>
    have hi : FaultKind.ofCode i = none := by simpa [OperatingSet.readItem] using h
    simp [OperatingSet.writeItem, OperatingSet.writeClass, hi]

theorem exists_eight_bytes {v : List Byte} (h : v.length = 8) :
    ∃ a b c d e f g k, v = [a, b, c, d, e, f, g, k] := by
  match v, h with
  | [a, b, c, d, e, f, g, k], _ => exact ⟨a, b, c, d, e, f, g, k, rfl⟩

/-- A fitted field that was not clamped is the field, and does not exceed its bound. -/
theorem fitted_field {n : Nat} {lo hi : Int} (hle : lo ≤ hi) (h : (fitted n lo hi).2 = false) :
    (fitted n lo hi).1 = n ∧ (n : Int) ≤ hi := by
  have hkept := fitted_kept h
  exact ⟨hkept, hkept ▸ (fitted_within hle).2⟩

theorem OperatingSet.writeSegment_reads {o o' : OperatingSet} {i : Nat} {v : List Byte}
    (hslots : o.segs.length = 48) (hv : v.length = 8)
    (h : o.writeSegment i v = some (o', .accepted)) : o'.readItem .segment i = some v := by
  obtain ⟨a, b, c, d, e, f, g, k, rfl⟩ := exists_eight_bytes hv
  unfold OperatingSet.writeSegment at h
  split_ifs at h with hi
  split at h
  next gr kind hg hk =>
    obtain ⟨rfl, hcode⟩ := Prod.mk.inj (Option.some.inj h)
    obtain ⟨hs, hl⟩ := Bool.or_eq_false_iff.1 (writeCode_accepted hcode)
    obtain ⟨hs, hsmax⟩ := fitted_field (by decide) hs
    obtain ⟨hl, hlmax⟩ := fitted_field (by decide) hl
    have hstart : putI32 (fieldAt [a, b, c, d, e, f, g, k] 0 4) = [a, b, c, d] :=
      putI32_fieldAt rfl hsmax
    have hlimit : putU16 (fieldAt [a, b, c, d, e, f, g, k] 4 2) = [e, f] := putU16_getUnsigned e f
    simp [OperatingSet.readItem, List.getD_eq_getElem?_getD, hslots, hi, Segment.bytes, hs, hl, hstart,
      hlimit, finOf_val hg, SegKind.code_ofCode hk, ofNat_byteAt]
  next => cases h

theorem OperatingSet.writeCheckpoint_reads {o o' : OperatingSet} {i : Nat} {v : List Byte}
    (hslots : o.cps.length = 24) (hv : v.length = 8)
    (h : o.writeCheckpoint i v = some (o', .accepted)) : o'.readItem .checkpoint i = some v := by
  obtain ⟨a, b, c, d, e, f, g, k, rfl⟩ := exists_eight_bytes hv
  unfold OperatingSet.writeCheckpoint at h
  split_ifs at h with hi
  split at h
  next br n hb hn =>
    obtain ⟨rfl, hcode⟩ := Prod.mk.inj (Option.some.inj h)
    obtain ⟨hp, ht⟩ := Bool.or_eq_false_iff.1 (writeCode_accepted hcode)
    obtain ⟨hp, hpmax⟩ := fitted_field (by decide) hp
    obtain ⟨ht, htmax⟩ := fitted_field (by decide) ht
    have hpos : putI32 (fieldAt [a, b, c, d, e, f, g, k] 0 4) = [a, b, c, d] :=
      putI32_fieldAt rfl hpmax
    have htol : putU16 (fieldAt [a, b, c, d, e, f, g, k] 6 2) = [g, k] := putU16_getUnsigned g k
    simp [OperatingSet.readItem, List.getD_eq_getElem?_getD, hslots, hi, Checkpoint.bytes, hp, ht, hpos,
      htol, finOf_val hn, Branch.code_ofCode hb, ofNat_byteAt]
  next => cases h

theorem OperatingSet.writeStop_reads {o o' : OperatingSet} {i : Nat} {v : List Byte}
    (hv : v.length = 10) (h : o.writeStop i v = some (o', .accepted)) :
    o'.readItem .stop i = some v := by
  obtain ⟨a, b, c, d, e, f, g, k, l, m, rfl⟩ : ∃ a b c d e f g k l m, v = [a, b, c, d, e, f, g, k, l, m] := by
    match v, hv with
    | [a, b, c, d, e, f, g, k, l, m], _ => exact ⟨a, b, c, d, e, f, g, k, l, m, rfl⟩
  unfold OperatingSet.writeStop at h
  split at h
  next x hx =>
    obtain ⟨rfl, hcode⟩ := Prod.mk.inj (Option.some.inj h)
    obtain ⟨h12, hw⟩ := Bool.or_eq_false_iff.1 (writeCode_accepted hcode)
    obtain ⟨h1, h2⟩ := Bool.or_eq_false_iff.1 h12
    obtain ⟨h1, h1max⟩ := fitted_field (by decide) h1
    obtain ⟨h2, h2max⟩ := fitted_field (by decide) h2
    obtain ⟨hw, hwmax⟩ := fitted_field (by decide) hw
    have hmark1 : putI32 (fieldAt [a, b, c, d, e, f, g, k, l, m] 0 4) = [a, b, c, d] :=
      putI32_fieldAt rfl h1max
    have hmark2 : putI32 (fieldAt [a, b, c, d, e, f, g, k, l, m] 4 4) = [e, f, g, k] :=
      putI32_fieldAt rfl h2max
    have hwin : putU16 (fieldAt [a, b, c, d, e, f, g, k, l, m] 8 2) = [l, m] := putU16_getUnsigned l m
    simp [OperatingSet.readItem, hx, OperatingSet.stopRec_putStop, StopRecord.bytes, h1, h2, hw, hmark1,
      hmark2, hwin]
  next => cases h

theorem OperatingSet.writeSetting_reads {o o' : OperatingSet} {i : Nat} {v : List Byte}
    (hv : v.length = 4) (h : o.writeSetting i v = some (o', .accepted)) :
    o'.readItem .setting i = some v := by
  obtain ⟨a, b, c, d, rfl⟩ : ∃ a b c d, v = [a, b, c, d] := by
    match v, hv with
    | [a, b, c, d], _ => exact ⟨a, b, c, d, rfl⟩
  unfold OperatingSet.writeSetting at h
  split at h
  next lo hi hr =>
    obtain ⟨rfl, hcode⟩ := Prod.mk.inj (Option.some.inj h)
    have hx := fitted_kept (writeCode_accepted hcode)
    have hvalue : putI32 (signedAt [a, b, c, d] 0) = [a, b, c, d] := putI32_getSigned32 a b c d
    simp [OperatingSet.readItem, hr, Settings.get_put_same _ hr, hx, hvalue]
  next => cases h

theorem OperatingSet.writeFilter_reads {o o' : OperatingSet} {i : Nat} {v : List Byte} {code : ReplyCode}
    (hslots : o.filters.length = 14) (hv : v.length = 7) (h : o.writeFilter i v = some (o', code)) :
    o'.readItem .filter i = some v := by
  obtain ⟨a, b, c, d, e, f, g, rfl⟩ : ∃ a b c d e f g, v = [a, b, c, d, e, f, g] := by
    match v, hv with
    | [a, b, c, d, e, f, g], _ => exact ⟨a, b, c, d, e, f, g, rfl⟩
  unfold OperatingSet.writeFilter at h
  split_ifs at h with hi
  split at h
  next src en rep hsrc hen hrep =>
    cases h
    have hset : putU16 (fieldAt [a, b, c, d, e, f, g] 2 2) = [c, d] := putU16_getUnsigned c d
    have hclear : putU16 (fieldAt [a, b, c, d, e, f, g] 4 2) = [e, f] := putU16_getUnsigned e f
    simp [OperatingSet.readItem, OperatingSet.filter, List.getD_eq_getElem?_getD, hslots, hi,
      FilterConfig.bytes, SlotSource.code_ofCode hsrc, putBool_boolOf hen, putBool_boolOf hrep, hset,
      hclear, ofNat_byteAt]
  next => cases h

theorem OperatingSet.writeClass_reads {o o' : OperatingSet} {i : Nat} {v : List Byte}
    (hslots : o.classes.length = 27) (hv : v.length = 1)
    (h : o.writeClass i v = some (o', .accepted)) : o'.readItem .class i = some v := by
  obtain ⟨a, rfl⟩ := List.length_eq_one_iff.1 hv
  unfold OperatingSet.writeClass at h
  split at h
  next k c hk hc =>
    split at h
    · split_ifs at h
      · cases h
      · cases h
        obtain rfl := FaultKind.ofCode_some hk
        simp [OperatingSet.readItem, hk, OperatingSet.classOf_set hslots, StopClass.rank_ofCode hc,
          ofNat_byteAt]
    · cases h
  next => cases h

theorem OperatingSet.writeCount_reads {o o' : OperatingSet} {i : Nat} {v : List Byte}
    (hv : v.length = 1) :
    (o.writeSegCount i v = some (o', .accepted) → o'.readItem .segmentCount i = some v)
      ∧ (o.writeCpCount i v = some (o', .accepted) → o'.readItem .checkpointCount i = some v) := by
  obtain ⟨a, rfl⟩ := List.length_eq_one_iff.1 hv
  have hbyte (lo hi : Int) (hle : lo ≤ hi) (h : (fitted (byteAt [a] 0) lo hi).2 = false) :
      BitVec.ofNat 8 (fitted (byteAt [a] 0) lo hi).1.toNat = a := by
    rw [(fitted_field hle h).1, Int.toNat_natCast, ofNat_byteAt]
    rfl
  constructor <;> intro h
  · unfold OperatingSet.writeSegCount at h
    split_ifs at h with hi
    obtain ⟨rfl, hcode⟩ := Prod.mk.inj (Option.some.inj h)
    simp [OperatingSet.readItem, hi, hbyte 1 48 (by decide) (writeCode_accepted hcode)]
  · unfold OperatingSet.writeCpCount at h
    split_ifs at h with hi
    obtain ⟨rfl, hcode⟩ := Prod.mk.inj (Option.some.inj h)
    simp [OperatingSet.readItem, hi, hbyte 0 24 (by decide) (writeCode_accepted hcode)]

/-- An item written with ACCEPTED reads back as the bytes written (R195, R196). -/
theorem OperatingSet.writeItem_reads {o o' : OperatingSet} {c : ItemClass} {i : Nat} {v : List Byte}
    (hr : o.RangeLaw) (hc : o.ClassLaw) (hv : v.length = c.valueLen)
    (h : o.writeItem c i v = some (o', .accepted)) : o'.readItem c i = some v := by
  cases c
  case segment => exact OperatingSet.writeSegment_reads hr.segSlots hv h
  case checkpoint => exact OperatingSet.writeCheckpoint_reads hr.cpSlots hv h
  case stop => exact OperatingSet.writeStop_reads hv h
  case setting => exact OperatingSet.writeSetting_reads hv h
  case filter => exact OperatingSet.writeFilter_reads hr.filterSlots hv h
  case segmentCount => exact (OperatingSet.writeCount_reads hv).1 h
  case checkpointCount => exact (OperatingSet.writeCount_reads hv).2 h
  next => exact OperatingSet.writeClass_reads hc.1 hv h

/-- Only a class is HELD, and a write that is HELD leaves the set (R172). -/
theorem OperatingSet.writeItem_code {o o' : OperatingSet} {c : ItemClass} {i : Nat} {v : List Byte}
    {code : ReplyCode} (h : o.writeItem c i v = some (o', code)) :
    (code = .accepted ∨ code = .clamped) ∨ (code = .held ∧ c = .class ∧ o' = o) := by
  cases c
  case segment =>
    change o.writeSegment i v = _ at h
    unfold OperatingSet.writeSegment at h
    split_ifs at h
    split at h <;> cases h
    exact .inl (writeCode_cases _)
  case checkpoint =>
    change o.writeCheckpoint i v = _ at h
    unfold OperatingSet.writeCheckpoint at h
    split_ifs at h
    split at h <;> cases h
    exact .inl (writeCode_cases _)
  case stop =>
    change o.writeStop i v = _ at h
    unfold OperatingSet.writeStop at h
    split at h <;> cases h
    exact .inl (writeCode_cases _)
  case setting =>
    change o.writeSetting i v = _ at h
    unfold OperatingSet.writeSetting at h
    split at h <;> cases h
    exact .inl (writeCode_cases _)
  case filter =>
    change o.writeFilter i v = _ at h
    unfold OperatingSet.writeFilter at h
    split_ifs at h
    split at h <;> cases h
    exact .inl (.inl rfl)
  case segmentCount =>
    change o.writeSegCount i v = _ at h
    unfold OperatingSet.writeSegCount at h
    split_ifs at h
    cases h
    exact .inl (writeCode_cases _)
  case checkpointCount =>
    change o.writeCpCount i v = _ at h
    unfold OperatingSet.writeCpCount at h
    split_ifs at h
    cases h
    exact .inl (writeCode_cases _)
  next =>
    change o.writeClass i v = _ at h
    unfold OperatingSet.writeClass at h
    split at h
    · split at h
      · split_ifs at h
        · cases h; exact .inr ⟨rfl, rfl, rfl⟩
        · cases h; exact .inl (.inl rfl)
      · cases h; exact .inr ⟨rfl, rfl, rfl⟩
    · cases h

/-- Settles O51: every form of a write is of one item, and each field of an ACCEPTED one was taken as it
was written. -/
theorem itemsReadBackAsWritten : Obligations.ItemsReadBackAsWritten := by
  intro o c i v hr hc hv
  refine ⟨OperatingSet.writeItem_none v, fun o' code h => ?_⟩
  have hw := OperatingSet.writeItem_written h
  have hcode := OperatingSet.writeItem_code h
  refine ⟨?_, ?_, ?_, hw.range hr, hw.class_law hc, fun c' j hne => hw.others hc.1 hne⟩
  · rintro rfl
    exact OperatingSet.writeItem_reads hr hc hv h
  · rintro rfl
    rcases hcode with (h | h) | ⟨_, h⟩
    · cases h
    · cases h
    · exact h
  · rcases hcode with (h | h) | ⟨h, _⟩
    · exact .inl h
    · exact .inr (.inl h)
    · exact .inr (.inr h)

end Sys2Proof.Machine
end

section
/-!
The laws that every step keeps: the queue, the lists' shapes, the Active Fault Set and the class tables, the
corrections, the ranges and the lock.  A law is kept by every step once each kind of change keeps it (`Law`).
-/

namespace Sys2Proof.Machine

open Sys2Proof

set_option Elab.async false

/-- A predicate that each kind of change of a body keeps (`Reacts`). -/
structure Law (P : State → Prop) : Prop where
  keeps : ∀ {s t : State}, Keeps s t → P s → P t
  fewer : ∀ (s : State) (keep : FaultEntry → Bool), P s → P { s with faults := s.faults.filter keep }
  call : ∀ (s : State) (id : Ident) (side : Side), s.queueFull id = false → P s → P (s.takeCall id side)
  edit : ∀ (s : State) {st : Store}, Store.Edits s.store st → P s → P { s with store := st }
  apart : ∀ {s t : State}, Apart s t → P s → P t
  noted : ∀ s : State, P s → P s.markReported
  matched : ∀ (s : State) (k : Car) (j : Nat) (new : Int),
    (0 ≤ s.settings.cMax → mag new ≤ s.settings.cMax) → P s →
    P (s.modReck fun r => { r.setZone k j .withinMatched with c := r.c.set k new, miss := r.miss.set k 0 })
  startCommit : ∀ (s : State) (o : OperatingSet), s.store.staging = some o → P s →
    P (s.modStore fun st => st.startCommit o)
  endConstant : ∀ (s : State) (n : ConstName) (v : Int), s.store.cycle = .constant n v → P s →
    P (s.modStore fun st => st.putConstant n v)
  endLock : ∀ s : State, s.store.cycle = .lock → P s →
    P (s.modStore fun st => { st with lock := true, cycle := .idle })
  endCommit : ∀ (s : State) (o : OperatingSet), s.store.cycle = .commit o → P s →
    P ((s.modStore fun st => st.commit o).modReck fun r => r.replaceTable o.settings.cMax)

theorem Law.answers {P : State → Prop} (l : Law P) {s t : State} (h : Answers s t) : P s → P t := by
  induction h with
  | keeps h => exact l.keeps h
  | fewer s keep => exact l.fewer s keep
  | call s id side hf => exact l.call s id side hf
  | edit s h => exact l.edit s h
  | trans _ _ a b => exact b ∘ a

theorem Law.reacts {P : State → Prop} (l : Law P) {s t : State} (h : Reacts s t) : P s → P t := by
  induction h with
  | answers h => exact l.answers h
  | apart h => exact l.apart h
  | noted s => exact l.noted s
  | matched s k j new hb => exact l.matched s k j new hb
  | startCommit s o h => exact l.startCommit s o h
  | endConstant s n v h => exact l.endConstant s n v h
  | endLock s h => exact l.endLock s h
  | endCommit s o h => exact l.endCommit s o h
  | trans _ _ a b => exact b ∘ a

/-- A law that a start-up brings is kept by every step. -/
theorem Law.step_keeps {P : State → Prop} (l : Law P)
    (hfresh : ∀ s, P s → P (State.fresh s.pending s.store.startUp))
    (hpending : ∀ s rest, P s → P { s with pending := rest }) {s t : State} (hs : P s)
    (h : step s = .next t) : P t :=
  Reacts.step_keeps hpending hfresh (fun _ _ => l.reacts) hs h

/-- Taking a call changes the queue and the served-entry list alone. -/
theorem State.takeCall_eq (s : State) (id : Ident) (side : Side) :
    ∃ q r, s.takeCall id side = { s with queue := q, run := r } := by
  unfold State.takeCall State.addServed
  repeat' split
  all_goals exact ⟨_, _, rfl⟩

/-! ## The sets in the store -/

/-- Every set in the store meets a predicate. -/
def Store.All (L : OperatingSet → Prop) (st : Store) : Prop := ∀ o ∈ st.sets, L o

theorem Store.all_iff {L : OperatingSet → Prop} {st : Store} : st.All L ↔
    L st.stored ∧ L st.active ∧ (∀ o, st.staging = some o → L o) ∧ (∀ o, st.cycle = .commit o → L o) := by
  unfold Store.All Store.sets
  cases hcycle : st.cycle <;> cases hstaging : st.staging <;> simp

/-- A predicate of sets that every write keeps. -/
def Kept (L : OperatingSet → Prop) : Prop :=
  ∀ o o' c i, Written o c i o' → L o → L o'

theorem Store.All.edits {L : OperatingSet → Prop} (hL : Kept L) {st st' : Store}
    (h : Store.Edits st st') (ha : st.All L) : st'.All L := by
  rw [Store.all_iff] at ha ⊢
  obtain ⟨hstored, hactive, hstaging, hcycle⟩ := ha
  cases h with
  | opens => exact ⟨hstored, hactive, fun o h => by cases h; exact hactive, hcycle⟩
  | writes o o' c i v code ho hw =>
    exact ⟨hstored, hactive,
      fun x h => by cases h; exact hL _ _ _ _ (OperatingSet.writeItem_written hw) (hstaging o ho), hcycle⟩
  | drops => exact ⟨hstored, hactive, fun o h => (by cases h), hcycle⟩
  | constant => exact ⟨hstored, hactive, hstaging, fun o h => by cases h⟩
  | locks => exact ⟨hstored, hactive, hstaging, fun o h => by cases h⟩

theorem Store.All.startCommit {L : OperatingSet → Prop} {st : Store} (ha : st.All L) {o : OperatingSet}
    (h : st.staging = some o) : (st.startCommit o).All L := by
  rw [Store.all_iff] at ha ⊢
  obtain ⟨hstored, hactive, hstaging, -⟩ := ha
  exact ⟨hstored, hactive, fun o h => (by cases h), fun x hx => by cases hx; exact hstaging o h⟩

theorem Store.All.idle {L : OperatingSet → Prop} {st : Store} (ha : st.All L) (c : Constants) (b : Bool) :
    ({ st with consts := c, lock := b, cycle := .idle } : Store).All L := by
  rw [Store.all_iff] at ha ⊢
  obtain ⟨hstored, hactive, hstaging, -⟩ := ha
  exact ⟨hstored, hactive, hstaging, fun o h => by cases h⟩

theorem Store.All.commit {L : OperatingSet → Prop} {st : Store} (ha : st.All L) {o : OperatingSet}
    (h : st.cycle = .commit o) : (st.commit o).All L := by
  rw [Store.all_iff] at ha ⊢
  obtain ⟨-, -, hstaging, hcycle⟩ := ha
  exact ⟨hcycle o h, hcycle o h, hstaging, fun o h => by cases h⟩

theorem Store.All.startUp {L : OperatingSet → Prop} {st : Store} (ha : st.All L)
    (hfactory : L OperatingSet.factory) : st.startUp.All L := by
  rw [Store.all_iff] at ha ⊢
  obtain ⟨hstored, -, -, -⟩ := ha
  refine ⟨hstored, ?_, fun o h => (by cases h), fun o h => by cases h⟩
  unfold Store.startUp
  dsimp only
  split
  · exact hstored
  · exact hfactory

/-! ## The queue and the shapes -/

theorem State.QueueLaw.keeps {s t : State} (h : Keeps s t) (hs : s.QueueLaw) : t.QueueLaw :=
  ⟨by simpa using le_trans h.settles.queue.length_le (by simpa using hs.1), h.settles.queue.nodup hs.2⟩

theorem State.queueLaw : Law State.QueueLaw where
  keeps := State.QueueLaw.keeps
  fewer _ _ h := h
  call _ _ side hf h := State.takeCall_queueLaw h side hf
  edit _ _ _ h := h
  apart a h := by unfold State.QueueLaw at h ⊢; rwa [a.queue]
  noted _ h := h
  matched _ _ _ _ _ h := h
  startCommit _ _ _ h := h
  endConstant _ _ _ _ h := h
  endLock _ _ h := h
  endCommit _ _ _ h := h

theorem State.shapeLaw : Law State.ShapeLaw where
  keeps h := h.shapes.shape
  fewer _ _ h := h
  call s id side _ h := by
    obtain ⟨q, r, e⟩ := s.takeCall_eq id side
    rw [e]; exact h
  edit _ _ _ h := h
  apart a h := by unfold State.ShapeLaw at h ⊢; rwa [a.inputs, a.slots, a.zones]
  noted s h := by
    obtain ⟨hi, hs, h1, h2⟩ := h
    exact ⟨hi, (State.zipIdx_map_length _ _).trans hs, h1, h2⟩
  matched s k j _ _ h := by
    obtain ⟨hi, hs, h1, h2⟩ := h
    refine ⟨hi, hs, ?_, ?_⟩ <;> cases k <;>
      simpa [State.modReck, Reckoner.setZone, PerCar.set, PerCar.get]
  startCommit _ _ _ h := h
  endConstant _ _ _ _ h := h
  endLock _ _ h := h
  endCommit s o _ h := by
    obtain ⟨hi, hs, -, -⟩ := h
    exact ⟨hi, hs, rfl, rfl⟩

/-- Settles O56. -/
theorem queueAndShapeKept : Obligations.QueueAndShapeKept := fun _ _ h =>
  ⟨fun hs => State.queueLaw.step_keeps (fun _ _ => ⟨Nat.zero_le _, List.nodup_nil⟩) (fun _ _ h => h) hs h,
    fun hs => State.shapeLaw.step_keeps (fun _ _ => ⟨rfl, rfl, rfl, rfl⟩) (fun _ _ h => h) hs h⟩

/-! ## The Active Fault Set and the class tables -/

theorem kept_classLaw : Kept OperatingSet.ClassLaw := fun _ _ _ _ => Written.class_law

/-- What the law of the Active Fault Set asks of an entry. -/
def FaultEntry.Fit (e : FaultEntry) : Prop :=
  1 ≤ e.count ∧ e.count ≤ 255 ∧ e.kind.leastClass.rank ≤ e.cls.rank
    ∧ (e.kind.floor = none → e.cls = e.kind.defaultClass)

theorem State.faultLaw_iff {s : State} : s.FaultLaw ↔ s.store.All OperatingSet.ClassLaw
    ∧ s.faults.Pairwise (fun a b => a.kind.code < b.kind.code) ∧ ∀ e ∈ s.faults, e.Fit := Iff.rfl

theorem State.FaultLaw.keeps {s t : State} (h : Keeps s t) (hs : s.FaultLaw) : t.FaultLaw := by
  obtain ⟨hsets, hpair, hfit⟩ := State.faultLaw_iff.1 hs
  obtain ⟨hpair', hcount⟩ := h.settles.ordered ⟨hpair, fun e he => ⟨(hfit e he).1, (hfit e he).2.1⟩⟩
  refine State.faultLaw_iff.2 ⟨by rw [h.settles.outer.store]; exact hsets, hpair', fun e' he' => ?_⟩
  obtain ⟨hlow, hhigh⟩ := hcount e' he'
  refine ⟨hlow, hhigh, ?_⟩
  rcases h.settles.new e' he' with ⟨e, he, hf⟩ | ⟨-, hcls⟩
  · rw [hf.kind, hf.cls]
    exact (hfit e he).2.2
  · rw [hcls]
    exact (Store.all_iff.1 hsets).2.1.2 e'.kind

theorem State.faultLaw : Law State.FaultLaw where
  keeps := State.FaultLaw.keeps
  fewer s keep h := by
    obtain ⟨hsets, hpair, hfit⟩ := State.faultLaw_iff.1 h
    exact State.faultLaw_iff.2 ⟨hsets, hpair.filter keep, fun e he => hfit e (List.mem_of_mem_filter he)⟩
  call s id side _ h := by
    obtain ⟨q, r, e⟩ := s.takeCall_eq id side
    rw [e]; exact h
  edit _ _ e h := ⟨Store.All.edits kept_classLaw e h.1, h.2⟩
  apart a h := by
    rw [State.faultLaw_iff] at h ⊢
    rwa [a.store, a.faults]
  noted s h := by
    obtain ⟨hsets, hpair, hfit⟩ := State.faultLaw_iff.1 h
    refine State.faultLaw_iff.2 ⟨hsets, ?_, ?_⟩
    · unfold State.markReported
      dsimp only
      split
      · exact List.pairwise_map.2 hpair
      · exact hpair
    · unfold State.markReported
      dsimp only
      split
      · intro e he
        obtain ⟨e', he', rfl⟩ := List.mem_map.1 he
        exact hfit e' he'
      · exact hfit
  matched _ _ _ _ _ h := h
  startCommit _ _ ho h := ⟨Store.All.startCommit h.1 ho, h.2⟩
  endConstant _ _ _ _ h := ⟨Store.All.idle h.1 _ _, h.2⟩
  endLock _ _ h := ⟨Store.All.idle h.1 _ _, h.2⟩
  endCommit _ _ hc h := ⟨Store.All.commit h.1 hc, h.2⟩

theorem OperatingSet.factory_classLaw : OperatingSet.factory.ClassLaw := by
  refine ⟨rfl, fun k => ?_⟩
  cases k <;> decide

/-- Settles O57: an entry's class is the table's when it is made, and no write takes the table below the
floors. -/
theorem faultLawKept : Obligations.FaultLawKept := fun _ _ hs h =>
  State.faultLaw.step_keeps
    (fun _ hs => ⟨Store.All.startUp hs.1 OperatingSet.factory_classLaw, List.Pairwise.nil,
      fun _ he => absurd he List.not_mem_nil⟩)
    (fun _ _ h => h) hs h

/-! ## The corrections -/

theorem kept_bound : Kept fun o => 0 ≤ o.settings.cMax := fun _ _ _ _ => Written.bound

theorem State.correctionLaw_iff {s : State} : s.CorrectionLaw ↔
    s.store.All (fun o => 0 ≤ o.settings.cMax) ∧ ∀ k, mag (s.reck.c.get k) ≤ s.settings.cMax := Iff.rfl

theorem State.correctionLaw : Law State.CorrectionLaw where
  keeps h hs := by
    obtain ⟨hsets, hc⟩ := State.correctionLaw_iff.1 hs
    have hstore : _ = _ := h.settles.outer.store
    refine State.correctionLaw_iff.2 ⟨by rw [hstore]; exact hsets, h.settles.bounded (fun _ => hc) ?_⟩
    unfold State.settings
    rw [hstore]
    exact (Store.all_iff.1 hsets).2.1
  fewer _ _ h := h
  call s id side _ h := by
    obtain ⟨q, r, e⟩ := s.takeCall_eq id side
    rw [e]; exact h
  edit s _ e h := by
    refine ⟨Store.All.edits kept_bound e h.1, fun k => ?_⟩
    have := h.2 k
    cases e <;> exact this
  apart a h := by
    rw [State.correctionLaw_iff] at h ⊢
    unfold State.settings at h ⊢
    rwa [a.store, a.corrections]
  noted _ h := h
  matched s k j new hnew h := by
    refine ⟨h.1, fun k' => ?_⟩
    have hk := hnew (Store.all_iff.1 h.1).2.1
    have hother := h.2 k'
    cases k <;> cases k' <;> first | exact hk | exact hother
  startCommit _ _ ho h := ⟨Store.All.startCommit h.1 ho, h.2⟩
  endConstant _ _ _ _ h := ⟨Store.All.idle h.1 _ _, h.2⟩
  endLock _ _ h := ⟨Store.All.idle h.1 _ _, h.2⟩
  endCommit s o hc h := by
    have hall := Store.All.commit h.1 hc
    refine ⟨hall, fun k => ?_⟩
    have hpos : 0 ≤ o.settings.cMax := (Store.all_iff.1 hall).2.1
    cases k <;> exact mag_clamp_le hpos

/-- Settles O58: a correction is written within C_max, and a new C_max limits it (R39, R198). -/
theorem correctionLawKept : Obligations.CorrectionLawKept := fun _ _ hs h => by
  refine State.correctionLaw.step_keeps (fun s hs => ?_) (fun _ _ h => h) hs h
  have hall := Store.All.startUp (L := fun o => 0 ≤ o.settings.cMax) hs.1 (by decide)
  refine ⟨hall, fun k => ?_⟩
  have hpos := (Store.all_iff.1 hall).2.1
  cases k <;> exact hpos

/-! ## Ranges and the lock -/

theorem kept_rangeLaw : Kept OperatingSet.RangeLaw := fun _ _ _ _ => Written.range

theorem Constants.get_put (c : Constants) (n m : ConstName) (v : Int) :
    (c.put n v).get m = if m = n then some v else c.get m := by
  cases n <;> cases m <;> rfl

theorem Store.Edits.consts {st st' : Store} (h : Store.Edits st st') :
    st'.consts = st.consts ∧ st'.lock = st.lock := by
  cases h <;> exact ⟨rfl, rfl⟩

theorem State.rangeLaw : Law State.RangeLaw where
  keeps h := h.range
  fewer _ _ h := ⟨h.sets, h.consts, h.decel⟩
  call s id side _ h := by
    obtain ⟨q, r, e⟩ := s.takeCall_eq id side
    rw [e]; exact ⟨h.sets, h.consts, h.decel⟩
  edit s _ e h := by
    refine ⟨Store.All.edits kept_rangeLaw e h.sets, fun n v hv => ?_, h.decel⟩
    cases e with
    | constant n' x _ =>
      rcases hv with hv | hv
      · exact h.consts n v (.inl hv)
      · cases hv
        exact fitted_within n.range_le
    | locks => exact h.consts n v (.inl (hv.resolve_right fun e => by cases e))
    | _ => exact h.consts n v hv
  apart a h := h.context a.store (.inl a.context)
  noted _ h := ⟨h.sets, h.consts, h.decel⟩
  matched _ _ _ _ _ h := ⟨h.sets, h.consts, h.decel⟩
  startCommit _ _ ho h := ⟨Store.All.startCommit h.sets ho,
    fun n v hv => h.consts n v (.inl (hv.resolve_right fun e => by cases e)), h.decel⟩
  endConstant s n v hc h := by
    refine ⟨Store.All.idle h.sets _ _, fun m x hx => ?_, h.decel⟩
    have hput : (s.store.consts.put n v).get m = some x := hx.resolve_right fun e => by cases e
    rw [Constants.get_put] at hput
    split_ifs at hput with hm
    · subst hm
      obtain rfl := Option.some.inj hput
      exact h.consts m v (.inr hc)
    · exact h.consts m x (.inl hput)
  endLock _ _ h := ⟨Store.All.idle h.sets _ _,
    fun n v hv => h.consts n v (.inl (hv.resolve_right fun e => by cases e)), h.decel⟩
  endCommit _ _ hc h := ⟨Store.All.commit h.sets hc,
    fun n v hv => h.consts n v (.inl (hv.resolve_right fun e => by cases e)), h.decel⟩

/-- The law of the lock, and locked constants that stand. -/
def State.Locked (c : Constants) (s : State) : Prop :=
  s.LockLaw ∧ s.store.lock = true ∧ s.store.consts = c

theorem State.locked (c : Constants) : Law (State.Locked c) where
  keeps h hs := by
    unfold State.Locked State.LockLaw at hs ⊢
    rwa [h.settles.outer.store]
  fewer _ _ h := h
  call s id side _ h := by
    obtain ⟨q, r, e⟩ := s.takeCall_eq id side
    rw [e]; exact h
  edit s st e h := by
    obtain ⟨hlaw, hlock, hconsts⟩ := h
    obtain ⟨ec, el⟩ := e.consts
    refine ⟨fun _ n v hcycle => ?_, el.trans hlock, ec.trans hconsts⟩
    cases e with
    | constant n x hopen => rw [hlock] at hopen; cases hopen
    | locks => cases hcycle
    | _ => exact hlaw hlock n v hcycle
  apart a h := by
    unfold State.Locked State.LockLaw at h ⊢
    rwa [a.store]
  noted _ h := h
  matched _ _ _ _ _ h := h
  startCommit _ _ _ h := ⟨fun _ _ _ e => (by cases e), h.2⟩
  endConstant _ n v hc h := absurd hc (h.1 h.2.1 n v)
  endLock _ _ h := ⟨fun _ _ _ e => (by cases e), rfl, h.2.2⟩
  endCommit _ _ _ h := ⟨fun _ _ _ e => (by cases e), h.2⟩

theorem State.lockLaw : Law State.LockLaw where
  keeps h hs := by
    unfold State.LockLaw at hs ⊢
    rwa [h.settles.outer.store]
  fewer _ _ h := h
  call s id side _ h := by
    obtain ⟨q, r, e⟩ := s.takeCall_eq id side
    rw [e]; exact h
  edit s st e h := by
    intro hlock n v hcycle
    cases e with
    | constant n x hopen => rw [show s.store.lock = true from hlock] at hopen; cases hopen
    | locks => cases hcycle
    | _ => exact h hlock n v hcycle
  apart a h := by
    unfold State.LockLaw at h ⊢
    rwa [a.store]
  noted _ h := h
  matched _ _ _ _ _ h := h
  startCommit _ _ _ _ := fun _ _ _ e => by cases e
  endConstant _ _ _ _ _ := fun _ _ _ e => by cases e
  endLock _ _ _ := fun _ _ _ e => by cases e
  endCommit _ _ _ _ := fun _ _ _ e => by cases e

theorem OperatingSet.factory_rangeLaw : OperatingSet.factory.RangeLaw where
  segSlots := rfl
  cpSlots := rfl
  filterSlots := rfl
  segCount := by decide
  cpCount := by decide
  segs g hg := by
    rw [List.eq_of_mem_replicate hg]
    unfold within
    decide
  cps c hc := by
    obtain ⟨j, -, rfl⟩ := List.mem_map.1 hc
    simp [within, Checkpoint.factory]
  stops x := by unfold within; cases x <;> decide
  settings i r h := by
    obtain ⟨h1, h24⟩ := settingRange_index h
    unfold within
    interval_cases i <;> cases h <;> decide
  filters := by decide

/-- Settles O59: values are fitted into their ranges before they are kept, and a locked store starts no
constant write. -/
theorem storeLawsKept : Obligations.StoreLawsKept := by
  intro s t h
  refine ⟨fun hs => ?_, fun hs => ?_, fun hs hlock => ?_⟩
  · refine State.rangeLaw.step_keeps (fun s hs => ?_) (fun _ _ h => ⟨h.sets, h.consts, h.decel⟩) hs h
    exact ⟨Store.All.startUp hs.sets OperatingSet.factory_rangeLaw,
      fun n v hv => hs.consts n v (.inl (hv.resolve_right fun e => by cases e)), fun _ e => by cases e⟩
  · exact State.lockLaw.step_keeps (fun _ _ _ _ _ e => by cases e) (fun _ _ h => h) hs h
  · obtain ⟨-, hl, hc⟩ := (State.locked s.store.consts).step_keeps
      (fun _ h => ⟨fun _ _ _ e => (by cases e), h.2⟩) (fun _ _ h => h) ⟨hs, hlock, rfl⟩ h
    exact ⟨hc, hl⟩

/-- The store as delivered holds the factory set alone. -/
theorem Store.delivered_all {L : OperatingSet → Prop} (h : L OperatingSet.factory) :
    Store.delivered.All L :=
  Store.all_iff.2 ⟨h, h, fun _ e => (by cases e), fun _ e => (by cases e)⟩

/-- Settles O60: the part as delivered holds TABLE_INVALID alone, in FAULT_HELD. -/
theorem resetMeetsLaws : Obligations.ResetMeetsLaws where
  left :=
    { output := by unfold State.OutputLaw; decide
      marks := by unfold State.MarkLaw Brake.MarkLaw; decide
      standing := by unfold State.StandingLaw; decide
      stop := fun _ => rfl
      record := rfl
      zero := fun _ => rfl }
  right := by
    refine ⟨⟨Nat.zero_le _, List.nodup_nil⟩, ⟨rfl, rfl, rfl, rfl⟩, ?_, ?_, ?_, ?_, ⟨rfl, rfl⟩, rfl, rfl⟩
    · refine State.faultLaw_iff.2 ⟨Store.delivered_all OperatingSet.factory_classLaw, ?_, ?_⟩
      · exact List.pairwise_singleton _ _
      · intro e he
        rw [List.mem_singleton.1 he]
        unfold FaultEntry.Fit
        decide
    · refine ⟨Store.delivered_all (L := fun o => 0 ≤ o.settings.cMax) (by decide), fun k => ?_⟩
      cases k <;> decide
    · refine ⟨Store.delivered_all OperatingSet.factory_rangeLaw, fun n v hv => ?_, fun _ e => by cases e⟩
      cases n <;> cases hv <;> rename_i e <;> cases e
    · exact fun e => by cases e

end Sys2Proof.Machine
end

section
/-!
Start-up from retained memory: what no detection of a start-up moves (`State.Unmoved`), and the whole state of
a start-up without a validity mark.
-/

namespace Sys2Proof.Machine

open Sys2Proof

set_option Elab.async false

/-! ## Start-up without a validity mark -/

/-- A store that has started without a validity mark (R200). -/
def Store.unmarked (st : Store) : Store :=
  { st with mark := false, active := OperatingSet.factory, staging := none, cycle := .idle }

theorem Store.startUp_unmarked {st : Store} (h : st.mark = false) : st.startUp = st.unmarked := by
  simp [Store.startUp, Store.unmarked, h]

/-- The state before the first detection of a start-up without a mark. -/
def State.blank (p : List Instr) (st : Store) : State := State.fresh p st.unmarked

/-- That state once TABLE_INVALID has been latched (R103, R173). -/
def State.stuck (p : List Instr) (st : Store) : State :=
  { State.blank p st with
    run := { RunControl.afterReset with state := .faultHeld, changed := true }
    faults := State.reset.faults
    conds := [.tableInvalid] }

theorem State.blank_takeFalls (p : List Instr) (st : Store) :
    (State.blank p st).takeFalls = { State.blank p st with conds := [.tableInvalid] } := rfl

/-- The report of TABLE_INVALID (R173). -/
def tableReport : Report := { kind := .tableInvalid }

theorem State.blank_latch (p : List Instr) (st : Store) :
    ({ State.blank p st with conds := [.tableInvalid] } : State).latch tableReport
      = { State.blank p st with conds := [.tableInvalid], faults := State.reset.faults } := by
  have hclock : ({ State.blank p st with conds := [.tableInvalid] } : State).faultClock = 0 :=
    show BitVec.ofNat 32 (0 / 1000) = 0 from rfl
  have hentry : ({ State.blank p st with conds := [.tableInvalid] } : State).newEntry tableReport
      = ⟨.tableInvalid, .serviceStop, 0, 1, true, false, ⟨false, false⟩, ⟨false, false⟩⟩ := by
    rw [State.newEntry, hclock]
    rfl
  have hnone : ({ State.blank p st with conds := [.tableInvalid] } : State).fault tableReport.kind
      = none := rfl
  unfold State.latch
  simp only [hnone, hentry]
  rfl

theorem State.blank_refresh (p : List Instr) (st : Store) :
    (State.blank p st).refresh = State.stuck p st := by
  have hrisen : (State.blank p st).risen.map Cond.report = [tableReport] := rfl
  have hstop : ({ State.blank p st with conds := [.tableInvalid] } : State).createsStop [tableReport]
      = true := rfl
  have hlatch : ({ State.blank p st with conds := [.tableInvalid] } : State).latchesEmergency
      [tableReport] = false := rfl
  rw [State.refresh, State.blank_takeFalls, hrisen, State.takeReports, hstop, hlatch, List.foldl_cons,
    List.foldl_nil, State.blank_latch]
  rfl

theorem State.blank_detect (p : List Instr) (st : Store) :
    (State.blank p st).detect = State.stuck p st := by
  have hreturn : (State.blank p st).returnToMain = State.blank p st := rfl
  have hbank : (State.blank p st).bankStep = State.blank p st :=
    State.takeOutputs_same (s := State.blank p st) rfl
  have hfail : (State.blank p st).failover = State.blank p st := rfl
  have hterm : (State.blank p st).terminalReference = State.blank p st := rfl
  rw [State.detect, hreturn, hbank, hfail, hterm, State.blank_refresh]

theorem State.stuck_atRest (p : List Instr) (st : Store) : (State.stuck p st).AtRest where
  slots := rfl
  wind := rfl
  noFailover h := by cases h.2.1
  noReturn := rfl
  noReference h := by cases h.2.1
  speed _ := ⟨rfl, rfl⟩
  conds := rfl

theorem State.blank_settle (p : List Instr) (st : Store) :
    (State.blank p st).settle = State.stuck p st := by
  have hround : (State.blank p st).round = State.stuck p st := by
    rw [State.round, State.blank_detect]
    exact State.runStep_faultHeld rfl rfl
  rw [State.settle_succ, hround]
  exact State.rounds_fixed ((State.stuck_atRest p st).round.trans (State.runStep_faultHeld rfl rfl)) 7

/-- The CAR_COMMAND of a standing part in FAULT_HELD. -/
theorem held_payload : CarTrigger.payload ⟨.faultHeld, none, false, 0, false, false⟩ 0
    = [10, 0, 0, 0, 0, 0, 0, 0, 0] := by decide

/-- That state with the links and periods that the command messages have left. -/
def State.stuckOn (p : List Instr) (st : Store) (links : PerParty Link) (periods : Periods) : State :=
  { State.stuck p st with links := links, periods := periods }

theorem State.stuckOn_announceCar (before : State) (p : List Instr) (st : Store)
    (links : PerParty Link) (periods : Periods) (k : Car) :
    State.announceCar before k (State.stuckOn p st links periods)
      = State.stuckOn p st
          (links.set k.party ((links.get k.party).hand .carCommand [firstCarCommand]))
          { periods with car := periods.car.set k period } := by
  have h : ((State.stuckOn p st links periods).carTrigger k).payload (State.stuckOn p st links periods).absV
      = firstCarCommand.payload := by cases k <;> exact held_payload
  have ht : (State.stuckOn p st links periods).time + period = period := Nat.zero_add _
  rw [State.announceCar, if_pos (.inl rfl), State.sendCar, h, ht]
  cases k <;> rfl

theorem State.stuckOn_announceLoop (before : State) (p : List Instr) (st : Store)
    (links : PerParty Link) (periods : Periods) :
    State.announceLoop before (State.stuckOn p st links periods)
      = State.stuckOn p st
          (links.set .loopStation ((links.get .loopStation).hand .loopCommand [firstLoopCommand]))
          { periods with loop := period } := by
  have ht : (State.stuckOn p st links periods).time + period = period := Nat.zero_add _
  rw [State.announceLoop, if_pos (.inl rfl), State.sendLoop, ht]
  rfl

theorem State.stuck_announce (p : List Instr) (st : Store) :
    State.announce (State.blank p st) (State.stuck p st)
      = { State.stuck p st with
          run := { RunControl.afterReset with state := .faultHeld }
          links := State.reset.links } := by
  have h : State.stuck p st = State.stuckOn p st (State.stuck p st).links Periods.afterReset := rfl
  rw [State.announce, h, State.stuckOn_announceCar, State.stuckOn_announceCar,
    State.stuckOn_announceLoop]
  rfl

/-- Settles O4: the one condition that holds is TABLE_INVALID, whose entry takes the state to FAULT_HELD,
where nothing more is to be done. -/
theorem resetWithoutMark : Obligations.ResetWithoutMark := by
  intro s h
  have hbank : (State.blank s.pending s.store).restartSlots = State.blank s.pending s.store := rfl
  have hout := State.takeOutputs_same (s := State.blank s.pending s.store) rfl
  have hstart : s.startUp = State.announce (State.blank s.pending s.store)
      (State.stuck s.pending s.store) := by
    rw [State.startUp, Store.startUp_unmarked h]
    show State.announce _ (((State.blank s.pending s.store).restartSlots).takeOutputs
      (State.blank s.pending s.store).slots).settle = _
    rw [hbank, hout, State.blank_settle]
    rfl
  show Host.Outcome.next s.startUp = _
  have hstore : { s.store with active := OperatingSet.factory, staging := none, cycle := .idle }
      = s.store.unmarked := by rw [Store.unmarked, ← h]
  rw [hstart, State.stuck_announce, hstore]
  rfl

/-! ## Start-up with a validity mark -/

/-- What no detection of a start-up moves: the run stands, nothing is referenced and the brakes are as
after reset. -/
structure State.Unmoved (s : State) : Prop where
  state : s.run.state = .parked ∨ s.run.state = .faultHeld
  record : s.run.record = none
  counter : s.run.counter = 0
  standstill : s.run.standstill = false
  target : s.target = none
  queue : s.queue = []
  shuttle : s.shuttle = ⟨false, .onCall, 0, .down⟩
  referenced : s.reck.referenced = false
  corrections : s.reck.c = ⟨0, 0⟩
  misses : s.reck.miss = ⟨0, 0⟩
  reference : s.prof.vRef = 0
  context : s.prof.ctx = none
  brakes : s.brk = BrakeUnit.afterReset

/-- A change of what a detection may move. -/
theorem State.Unmoved.same {s t : State} (h : s.Unmoved) (hrun : t.run = s.run := by rfl)
    (htarget : t.target = s.target := by rfl) (hqueue : t.queue = s.queue := by rfl)
    (hshuttle : t.shuttle = s.shuttle := by rfl)
    (hreferenced : t.reck.referenced = s.reck.referenced := by rfl)
    (hc : t.reck.c = s.reck.c := by rfl) (hmiss : t.reck.miss = s.reck.miss := by rfl)
    (href : t.prof.vRef = s.prof.vRef := by rfl) (hctx : t.prof.ctx = s.prof.ctx := by rfl)
    (hbrk : t.brk = s.brk := by rfl) : t.Unmoved := by
  obtain ⟨h1, h2, h3, h4, h5, h6, h7, h8, h9, h10, h11, h12, h13⟩ := h
  rw [← hrun] at h1 h2 h3 h4
  exact ⟨h1, h2, h3, h4, htarget ▸ h5, hqueue ▸ h6, hshuttle ▸ h7, hreferenced ▸ h8, hc ▸ h9,
    hmiss ▸ h10, href ▸ h11, hctx ▸ h12, hbrk ▸ h13⟩

/-- A fold of latches changes the Active Fault Set alone. -/
theorem State.latches_eq (rs : List Report) (s : State) :
    ∃ f, rs.foldl State.latch s = { s with faults := f } := by
  induction rs generalizing s with
  | nil => exact ⟨s.faults, rfl⟩
  | cons r rs ih =>
    have hr : ∃ f, s.latch r = { s with faults := f } := by
      unfold State.latch
      split <;> exact ⟨_, rfl⟩
    obtain ⟨f, hf⟩ := hr
    obtain ⟨g, hg⟩ := ih (s.latch r)
    exact ⟨g, by rw [List.foldl_cons, hg, hf]⟩

theorem State.Unmoved.emergencyDemand {s : State} (h : s.Unmoved) : s.emergencyDemand.Unmoved := by
  refine State.Unmoved.same (s := s) h ?_ ?_ ?_ ?_ ?_ ?_ ?_ ?_ ?_ ?_
  all_goals
    unfold State.emergencyDemand State.apply State.startCheck
    simp [h.brakes, BrakeUnit.afterReset, Brake.afterReset, Brake.apply, Brake.output, BrakeSet.any,
      State.modBrk]

theorem State.Unmoved.reactToFault {s : State} (h : s.Unmoved) (c : StopClass) :
    (s.reactToFault c).Unmoved := by
  unfold State.reactToFault
  rcases h.state with hs | hs <;> simp only [hs]
  · exact
      { state := .inr rfl, record := rfl, counter := h.counter, standstill := h.standstill
        target := rfl, queue := rfl
        shuttle := by
          show ({ s.shuttle with active := false } : Shuttle) = _
          rw [h.shuttle]
        referenced := h.referenced, corrections := h.corrections, misses := h.misses
        reference := rfl, context := rfl, brakes := h.brakes }
  · exact h

theorem State.Unmoved.takeReports {s : State} (h : s.Unmoved) (rs : List Report) :
    (s.takeReports rs).Unmoved := by
  obtain ⟨f, hf⟩ := State.latches_eq rs s
  have hlatched : ({ s with faults := f } : State).Unmoved := h.same
  unfold State.takeReports
  simp only [hf]
  split <;> split
  · exact hlatched.emergencyDemand.reactToFault _
  · exact hlatched.reactToFault _
  · exact hlatched.emergencyDemand
  · exact hlatched

theorem State.Unmoved.takeOutputs {s : State} (h : s.Unmoved) (old : List Slot) :
    (s.takeOutputs old).Unmoved := by
  have hlost (u : State) (hu : u.brk = BrakeUnit.afterReset) : u.lostRelease old = ⟨false, false⟩ := by
    simp [State.lostRelease, hu, BrakeUnit.afterReset, Brake.afterReset]
  have hfeed (was is : Bool) : Brake.afterReset.feedback was is = Brake.afterReset := by
    cases was <;> cases is <;> rfl
  have hb : ((s.modProf fun p => { p with wind := s.out 9 }).brakeFeedback old).Unmoved := by
    refine State.Unmoved.same (s := s) h ?_ ?_ ?_ ?_ ?_ ?_ ?_ ?_ ?_ ?_
    all_goals
      unfold State.brakeFeedback
      simp only [hlost (s.modProf _) h.brakes]
    case refine_10 =>
      show ({ s.brk with service := s.brk.service.feedback _ _, emergency := s.brk.emergency.feedback _ _ }
        : BrakeUnit) = s.brk
      rw [h.brakes, show BrakeUnit.afterReset.service = Brake.afterReset from rfl,
        show BrakeUnit.afterReset.emergency = Brake.afterReset from rfl, hfeed, hfeed]
      rfl
    all_goals rfl
  exact hb.takeReports _

theorem State.Unmoved.detect {s : State} (h : s.Unmoved) : s.detect.Unmoved := by
  have hreturn : s.returnToMain.Unmoved := by
    unfold State.returnToMain
    split
    · exact h.same
    · exact h
  have hbank (u : State) (hu : u.Unmoved) : u.bankStep.Unmoved :=
    State.Unmoved.takeOutputs (s := u.takeSources) hu.same _
  have hfail (u : State) (hu : u.Unmoved) : u.failover.Unmoved := by
    unfold State.failover
    split
    · exact State.Unmoved.takeReports hu.same _
    · exact hu
  have hterm (u : State) (hu : u.Unmoved) : u.terminalReference = u := by
    rw [State.terminalReference, if_neg (by simp [hu.standstill])]
  have hu := hfail _ (hbank _ hreturn)
  rw [State.detect, hterm _ hu]
  exact State.Unmoved.takeReports (s := State.takeFalls _) hu.same _

theorem State.Unmoved.runStep {s : State} (h : s.Unmoved) : s.runStep.Unmoved := by
  have hparked (u : State) (hu : u.Unmoved) : u.enterParked.Unmoved :=
    { state := .inl rfl, record := rfl, counter := hu.counter, standstill := hu.standstill
      target := rfl, queue := hu.queue, shuttle := hu.shuttle, referenced := hu.referenced
      corrections := hu.corrections, misses := hu.misses, reference := rfl, context := rfl
      brakes := hu.brakes }
  unfold State.runStep
  rcases h.state with hs | hs <;> simp only [hs]
  · split
    · have hnot : (s.modRun fun r => { r with arbitrate := false }).mayArbitrate = false := by
        unfold State.mayArbitrate
        rw [show (s.modRun fun r => { r with arbitrate := false }).reck.referenced = false from
          h.referenced, Bool.and_false]
      unfold State.arbitrate
      simp only [hnot]
      exact { h with }
    · exact h
  · split
    · exact h
    · refine hparked _ (State.Unmoved.same (s := s) h (hbrk := ?_))
      show ({ s.brk with rail := false } : BrakeUnit) = s.brk
      rw [h.brakes]
      rfl

theorem State.Unmoved.settle {s : State} (h : s.Unmoved) : s.settle.Unmoved := by
  have hrounds (n : Nat) : ∀ u : State, u.Unmoved → (State.rounds n u).Unmoved := by
    induction n with
    | zero => exact fun u hu => hu
    | succ n ih => exact fun u hu => ih _ hu.detect.runStep
  exact hrounds 8 s h

theorem State.fresh_unmoved (p : List Instr) (st : Store) : (State.fresh p st).Unmoved where
  state := .inl rfl
  record := rfl
  counter := rfl
  standstill := rfl
  target := rfl
  queue := rfl
  shuttle := rfl
  referenced := rfl
  corrections := rfl
  misses := rfl
  reference := rfl
  context := rfl
  brakes := rfl

theorem State.Unmoved.sends {s t : State} (h : s.Unmoved) (hs : Sends s t) : t.Unmoved where
  state := by
    have hst := congrArg RunControl.state hs.run
    dsimp only at hst
    rw [hst]
    exact h.state
  record := (congrArg RunControl.record hs.run).trans h.record
  counter := (congrArg RunControl.counter hs.run).trans h.counter
  standstill := (congrArg RunControl.standstill hs.run).trans h.standstill
  target := hs.target.trans h.target
  queue := hs.queue.trans h.queue
  shuttle := hs.shuttle.trans h.shuttle
  referenced := by rw [hs.reck]; exact h.referenced
  corrections := by rw [hs.reck]; exact h.corrections
  misses := by rw [hs.reck]; exact h.misses
  reference := by rw [hs.prof]; exact h.reference
  context := by rw [hs.prof]; exact h.context
  brakes := hs.brk.trans h.brakes

theorem State.startUp_unmoved (s : State) : s.startUp.Unmoved := by
  have hfresh := State.fresh_unmoved s.pending s.store.startUp
  have hrestart : (State.fresh s.pending s.store.startUp).restartSlots.Unmoved := hfresh.same
  exact (hrestart.takeOutputs _).settle.sends (State.announce_sends _ _)

/-- What a start-up leaves as it was loaded. -/
theorem State.startUp_loaded (s : State) :
    ∃ u, Outer (State.fresh s.pending s.store.startUp) u ∧ Sends u s.startUp :=
  ⟨_, (((State.restartSlots_keeps _).trans (State.takeOutputs_keeps _ _)).trans
    (State.settle_keeps _)).settles.outer, State.announce_sends _ _⟩

/-- Settles O5: no detection of a start-up starts a run, references the line or moves a brake. -/
theorem resetWithMark : Obligations.ResetWithMark := by
  intro s h
  have hu := s.startUp_unmoved
  obtain ⟨u, outer, sends⟩ := s.startUp_loaded
  have hstore : s.store.startUp
      = { s.store with active := s.store.stored, staging := none, cycle := .idle } := by
    simp [Store.startUp, h]
  have hactive : s.store.startUp.active = s.store.stored := by rw [hstore]
  refine ⟨s.startUp, rfl, sends.pending.trans outer.pending, sends.held.trans outer.held,
    sends.time.trans outer.time, (sends.store.trans outer.store).trans hstore, ?_,
    sends.inputs.trans outer.inputs, hu.queue, hu.shuttle, hu.counter, hu.record, hu.standstill,
    hu.target, hu.state, hu.referenced, hu.corrections, hu.misses, hu.reference, hu.context, hu.brakes,
    fun p => ?_, ?_, ?_, ?_⟩
  · rw [sends.tableInvalid, outer.tableInvalid]
    show (!s.store.startUp.mark) = false
    rw [hstore]
    simp [h]
  · obtain ⟨hup, hdue, hrx⟩ := sends.links p
    have hlink : u.link p = Link.afterReset (s.store.stored.settings.timeoutMs p) := by
      unfold State.link
      rw [outer.links, ← hactive]
      cases p <;> rfl
    rw [hup, hdue, hrx, hlink, Nat.mul_comm]
    exact ⟨rfl, rfl, rfl⟩
  all_goals rw [sends.recs, outer.recs]; rfl

end Sys2Proof.Machine
end

section
/-!
What the commands may change: for each record of the part, the commands that move it (`MayMove`).
-/

namespace Sys2Proof.Machine

open Sys2Proof

set_option Elab.async false

/-! ## The records, one by one -/

/-- The records of the part that have commands of their own. -/
inductive Part
  | held | inputs | sample | consts | lock | active | stored | mark | loop | drive
  | count (ch : Channel)
  | car (k : Car)

/-- A record stands. -/
def Part.Same (s t : State) : Part → Prop
  | .held => t.held = s.held
  | .inputs => t.inputs = s.inputs
  | .sample => t.reck.sample = s.reck.sample
  | .consts => t.store.consts = s.store.consts
  | .lock => t.store.lock = s.store.lock
  | .active => t.store.active = s.store.active
  | .stored => t.store.stored = s.store.stored
  | .mark => t.store.mark = s.store.mark
  | .loop => t.recs.loop = s.recs.loop
  | .drive => t.recs.drive = s.recs.drive
  | .count ch => (t.chan.get ch).count = (s.chan.get ch).count
  | .car k => t.recs.car.get k = s.recs.car.get k

theorem Part.Same.refl (s : State) (x : Part) : x.Same s s := by cases x <;> rfl

theorem Part.Same.trans {s t u : State} {x : Part} (a : x.Same s t) (b : x.Same t u) : x.Same s u := by
  cases x <;> exact Eq.trans b a

/-- Only records of a kind change. -/
def Moves (A : Part → Prop) (s t : State) : Prop := ∀ x, ¬ A x → x.Same s t

/-- No record changes. -/
abbrev Stands (s t : State) : Prop := ∀ x : Part, x.Same s t

theorem Moves.refl {A : Part → Prop} (s : State) : Moves A s s := fun x _ => .refl s x

theorem Moves.trans {A : Part → Prop} {s t u : State} (a : Moves A s t) (b : Moves A t u) :
    Moves A s u := fun x hx => (a x hx).trans (b x hx)

theorem Stands.moves {A : Part → Prop} {s t : State} (h : Stands s t) : Moves A s t := fun x _ => h x

theorem Stands.trans {s t u : State} (a : Stands s t) (b : Stands t u) : Stands s u :=
  fun x => (a x).trans (b x)

theorem Moves.weaken {A B : Part → Prop} {s t : State} (h : Moves A s t) (hAB : ∀ x, A x → B x) :
    Moves B s t := fun x hx => h x fun ha => hx (hAB x ha)

theorem Keeps.stands {s t : State} (h : Keeps s t) : Stands s t := fun x => by
  have o := h.settles.outer
  cases x
  case held => exact o.held
  case inputs => exact o.inputs
  case sample => exact o.sample
  case count ch => exact h.shapes.counts ch
  case loop | drive | car => simp only [Part.Same, o.recs]
  all_goals simp only [Part.Same, o.store]

theorem Store.Edits.stands {st st' : Store} (h : Store.Edits st st') (s : State) (hs : s.store = st) :
    Stands s { s with store := st' } := fun x => by
  subst hs
  cases h <;> cases x <;> rfl

theorem Answers.stands {s t : State} (h : Answers s t) : Stands s t := by
  induction h with
  | keeps h => exact h.stands
  | fewer s keep => exact fun x => by cases x <;> rfl
  | call s id side _ =>
    obtain ⟨q, r, h⟩ := s.takeCall_eq id side
    rw [h]
    exact fun x => by cases x <;> rfl
  | edit s h => exact h.stands s rfl
  | trans _ _ a b => exact a.trans b

/-! ## Frames -/

theorem State.modLink_stands (s : State) (p : Party) (f : Link → Link) : Stands s (s.modLink p f) :=
  fun x => by cases x <;> rfl

theorem State.traffic_stands (s : State) (p : Party) : Stands s (s.traffic p) := by
  have h1 : Stands s (s.restartTimer p) := s.modLink_stands p _
  have h2 := h1.trans ((s.restartTimer p).modLink_stands p fun l => { l with up := true })
  unfold State.traffic State.returnLink
  simp only
  repeat' split
  · exact h1
  · exact (h2.trans (State.wantArbitration_keeps _).stands).trans (State.settle_keeps _).stands
  · exact h2.trans (State.settle_keeps _).stands

/-- The record that a state message of a party sets (R184, R185). -/
def PartyRecord : Party → Part → Prop
  | .car1, x => x = .car .one
  | .car2, x => x = .car .two
  | .loopStation, x => x = .loop
  | .drive, x => x = .drive
  | .console, _ => False

theorem State.takeMessage_moves (s : State) (p : Party) (t : MsgType) (pl : List Byte) :
    Moves (PartyRecord p) s (s.takeMessage p t pl) := by
  have hcar (k : Car) : Moves (· = .car k) s (s.takeCarState k pl) :=
    Moves.trans (t := { s with recs := { s.recs with car := s.recs.car.set k (s.carReport pl) } })
      (fun x hx => by
        cases x
        case car k' => cases k <;> cases k' <;> first | rfl | exact absurd rfl hx
        all_goals rfl)
      (State.settle_keeps _).stands.moves
  unfold State.takeMessage
  split
  · cases p
    case car1 => exact hcar .one
    case car2 => exact hcar .two
    case loopStation =>
      refine Moves.trans (t := { s with recs := { s.recs with loop := loopReport pl } }) (fun x hx => ?_)
        (State.settle_keeps _).stands.moves
      cases x
      case loop => exact absurd rfl hx
      all_goals rfl
    case drive =>
      refine Moves.trans (t := { s with recs := { s.recs with drive := driveReport pl } }) (fun x hx => ?_)
        (State.settle_keeps _).stands.moves
      cases x
      case drive => exact absurd rfl hx
      all_goals rfl
    case console => exact .refl s
  · exact .refl s

/-- The records that a good frame of a type from a party may change. -/
inductive FrameMoves (p : Party) (type : Byte) : Part → Prop
  | message (t : MsgType) (x : Part) : MsgType.ofCode type = some t → t.permitted p = true →
      t.isState = true → PartyRecord p x → FrameMoves p type x
  | commit : MsgType.ofCode type = some .commitEdit → MsgType.commitEdit.permitted p = true →
      FrameMoves p type .mark

theorem State.reply_stands (s : State) (p : Party) (type : Byte) (pl : List Byte) (r : Reply) :
    Stands s (s.reply p type pl r) := fun x => by cases x <;> rfl

theorem State.answer_moves (s : State) (p : Party) (t : MsgType) (pl : List Byte) :
    Moves (fun x => x = .mark ∧ t = .commitEdit) s (s.answer p t pl).1 := by
  by_cases ht : t = .commitEdit
  · subst ht
    have h : Moves (fun x => x = .mark ∧ MsgType.commitEdit = .commitEdit) s s.answerCommit.1 := by
      rcases s.answerCommit_cases with h | ⟨o, _, h⟩ <;> rw [h]
      · exact .refl s
      · intro x hx
        cases x
        case mark => exact absurd ⟨rfl, rfl⟩ hx
        all_goals rfl
    exact h
  · exact (s.answer_answers p ht pl).stands.moves

theorem State.goodFrame_moves (s : State) (p : Party) (type : Byte) (pl : List Byte) :
    Moves (FrameMoves p type) s (s.goodFrame p type pl) := by
  have ht : Moves (FrameMoves p type) s (s.traffic p) := (s.traffic_stands p).moves
  have hreply (u : State) (r : Reply) : Moves (FrameMoves p type) u (u.reply p type pl r) :=
    (u.reply_stands p type pl r).moves
  unfold State.goodFrame State.takeFrame
  split
  · exact ht.trans (hreply _ _)
  next t hcode =>
    split_ifs with hperm hstate hlen
    · exact ht.trans (hreply _ _)
    · exact ht.trans ((State.takeMessage_moves _ p t pl).weaken fun x hx =>
        .message t x hcode (by simpa using hperm) hstate hx)
    · exact ht.trans (hreply _ _)
    · refine ht.trans (Moves.trans (t := ((s.traffic p).answer p t pl).1) ?_
        (State.reply_stands _ _ _ _ _).moves)
      refine (State.answer_moves _ p t pl).weaken ?_
      rintro x ⟨rfl, rfl⟩
      exact .commit hcode (by simpa using hperm)

/-- What a good frame may change at all. -/
def Part.Framed : Part → Prop
  | .mark | .loop | .drive | .car _ => True
  | _ => False

theorem FrameMoves.framed {p : Party} {type : Byte} {x : Part} (h : FrameMoves p type x) : x.Framed := by
  cases h with
  | message t x _ _ _ hx => cases p <;> cases hx <;> trivial
  | commit => trivial

theorem State.takeChar_moves (s : State) (p : Party) (b : Byte) :
    Moves Part.Framed s (s.takeChar p b) := by
  unfold State.takeChar State.checkedFrame
  repeat' split
  · exact .refl s
  · exact (s.modLink_stands _ _).moves
  · exact (s.modLink_stands p _).moves.trans
      ((State.goodFrame_moves _ _ _ _).weaken fun _ => FrameMoves.framed)
  · exact (s.modLink_stands p _).moves

theorem State.takeChars_moves (s : State) (p : Party) (bs : List Byte) :
    Moves Part.Framed s (s.takeChars p bs) := by
  unfold State.takeChars
  induction bs generalizing s with
  | nil => exact .refl s
  | cons b bs ih => exact (s.takeChar_moves p b).trans (ih _)

/-- A frame at a receiver that has just taken a SYNC. -/
theorem State.hearChecked_moves {s : State} {p : Party} (h : (s.link p).rx = .inFrame []) (type : Byte)
    {pl : List Byte} (hp : pl.length ≤ 192) (crc : BitVec 16) :
    Moves (fun x => FrameMoves p type x ∧ crc = Frame.crc ⟨type, pl⟩) s (s.hearChecked p type pl crc) := by
  cases hb : (s.link p).blocked
  · rw [State.hearChecked_listens ⟨h, hb⟩ type hp, State.checkedFrame]
    split
    next hcrc =>
      exact (s.modLink_stands p _).moves.trans
        ((State.goodFrame_moves _ _ _ _).weaken fun x hx => ⟨hx, hcrc⟩)
    next => exact (s.modLink_stands p _).moves
  · show Moves _ s (s.takeChars p _)
    rw [State.takeChars_blocked hb]
    exact .refl s

/-! ## Commands -/

/-- What each command may change, but at a receiver that has not just taken a SYNC. -/
inductive MayMove : Instr → Part → Prop
  | held (dt : Nat) : MayMove (.heldInReset dt) .held
  | inputs (dt : Nat) (seen : List (Fin 32 × Nat)) : MayMove (.inputLevelChange dt seen) .inputs
  | count (dt : Nat) (ch : Channel) (y : Sense) : MayMove (.encoderEdge dt ch y) (.count ch)
  | sample (dt : Nat) : MayMove (.sampleTimerExpiry dt) .sample
  | consts (dt : Nat) : MayMove (.constantWriteComplete dt) .consts
  | load (dt : Nat) (k : Car) : MayMove (.constantWriteComplete dt) (.car k)
  | lock (dt : Nat) : MayMove (.lockCycleComplete dt) .lock
  | active (dt : Nat) : MayMove (.commitCycleComplete dt) .active
  | stored (dt : Nat) : MayMove (.commitCycleComplete dt) .stored
  | mark (dt : Nat) : MayMove (.commitCycleComplete dt) .mark
  | commit (dt : Nat) (pl : List Byte) : MayMove (.commitEdit dt pl) .mark
  | car (dt : Nat) (k : Car) (pl : List Byte) : MayMove (.carState dt k pl) (.car k)
  | lostCar (dt : Nat) (k : Car) : MayMove (.linkTimeout dt k.party) (.car k)
  | loop (dt : Nat) (pl : List Byte) : MayMove (.loopState dt pl) .loop
  | lostLoop (dt : Nat) : MayMove (.linkTimeout dt .loopStation) .loop
  | drive (dt : Nat) (pl : List Byte) : MayMove (.driveState dt pl) .drive
  | lostDrive (dt : Nat) : MayMove (.linkTimeout dt .drive) .drive

theorem State.countEdge_moves (s : State) (ch : Channel) (y : Sense) :
    Moves (· = .count ch) s (State.countEdge ch y s) := fun x hx => by
  cases x
  case count c =>
    cases ch <;> cases c <;> first | exact absurd rfl hx | rfl
  all_goals rfl

theorem State.matchEdge_stands (s : State) (c : Checkpoint) (j : Nat) (k : Car) :
    Stands s (s.matchEdge c j k) := by
  unfold State.matchEdge
  simp only
  repeat' split
  · exact fun x => .refl s x
  · exact fun x => by cases x <;> rfl
  · exact Stands.trans (fun x => by cases x <;> rfl) (State.reformTarget_keeps _).stands

/-- A detector's edge changes no record that has commands of its own. -/
theorem State.inputEdge_stands (s : State) (n : Fin 32) : Stands s (s.inputEdge n) := by
  unfold State.inputEdge State.checkpointEdge State.matchedEdge State.branchReference
  repeat' split
  all_goals first
    | exact s.matchEdge_stands _ _ _
    | exact (s.takeReports_keeps _).stands
    | exact (s.reference_keeps _ (Zone.set_length _ _ _).1 (Zone.set_length _ _ _).2).stands
    | exact fun x => .refl s x

theorem Stands.foldl {α : Type} {f : State → α → State} (h : ∀ s a, Stands s (f s a)) (l : List α) :
    ∀ s, Stands s (l.foldl f s) := by
  induction l with
  | nil => exact fun s x => .refl s x
  | cons a l ih => exact fun s => (h s a).trans (ih _)

theorem State.seeInputs_moves (seen : List (Fin 32 × Nat)) (s : State) :
    Moves (· = .inputs) s (State.seeInputs seen s) := by
  have hlevels : Moves (· = .inputs) s { s with inputs := s.seenLevels seen } := fun x hx => by
    cases x
    case inputs => exact absurd rfl hx
    all_goals rfl
  exact (hlevels.trans (Stands.foldl State.inputEdge_stands _ _).moves).trans
    (State.settle_keeps _).stands.moves

theorem ChannelRecord.sample_count (c : ChannelRecord) (scale : Int) (t : CaptureTime) :
    (c.sample scale t).count = c.count := by
  unfold ChannelRecord.sample
  simp only
  repeat' split
  all_goals rfl

theorem State.updateConditions_stands (s : State) : Stands s s.updateConditions := by
  have h : Stands s s.restartStall := by
    unfold State.restartStall
    split
    · intro x
      cases x
      case count ch => cases ch <;> rfl
      all_goals rfl
    · exact fun x => .refl s x
  exact h.trans fun x => by cases x <;> rfl

theorem State.takeSample_moves (s : State) : Moves (· = .sample) s s.takeSample := by
  have hspeeds (u : State) : Stands u u.scheduleSample.formSpeeds := fun x => by
    cases x
    case count ch => cases ch <;> exact ChannelRecord.sample_count _ _ _
    all_goals rfl
  have hpublish (u : State) (new : Sample) : Moves (· = .sample) u (u.publish new) := fun x hx => by
    cases x
    case sample => exact absurd rfl hx
    all_goals rfl
  have hprof (u : State) (f : Profile → Profile) : Stands u (u.modProf f) := fun x => by cases x <;> rfl
  have hpermit (u : State) : Stands u u.permit := by
    unfold State.permit
    simp only
    split <;> exact Stands.trans (hprof _ _) (hprof _ _)
  have hsend (u : State) : Stands u u.sendDrive := fun x => by cases x <;> rfl
  have hsup (u : State) : Stands u u.supervise := by
    unfold State.supervise
    split
    · exact hprof _ _
    · exact fun x => .refl u x
  have hreckon : Moves (· = .sample) s s.reckonSample :=
    Moves.trans (((hspeeds s).trans (State.updateConditions_stands _)).trans
      ((State.detect_keeps _).stands.trans (State.sampleTests_keeps _ _).stands)).moves (hpublish _ _)
  have hpublished (u : State) : Stands u u.takePublished :=
    (((((hpermit u).trans (State.controlSample_keeps _).stands).trans (hprof _ _)).trans
      (State.endSuspendRamp_keeps _).stands).trans (hsend _)).trans (hsup _)
  unfold State.takeSample
  split
  · exact hreckon.trans (((hpublished _).trans (State.decideChecks_keeps _ _).stands).trans
      (State.settle_keeps _).stands).moves
  · exact .refl s

theorem State.takeLinkTimeout_moves (s : State) (p : Party) :
    Moves (PartyRecord p) s (State.takeLinkTimeout p s) := by
  have hlose : Moves (PartyRecord p) s (s.loseLink p) := fun x hx => by
    unfold State.loseLink
    cases p <;> cases x <;> first
      | rfl
      | exact absurd rfl hx
      | (rename_i k; cases k <;> first | rfl | exact absurd rfl hx)
  unfold State.takeLinkTimeout
  repeat' split
  · exact hlose.trans (State.settle_keeps _).stands.moves
  · exact (s.modLink_stands _ _).moves
  · exact .refl s

theorem State.takeConstantEnd_moves (s : State) :
    Moves (fun x => x = .consts ∨ ∃ k, x = .car k) s s.takeConstantEnd := by
  unfold State.takeConstantEnd
  split
  next n v hc =>
    have h1 : Stands s (s.scaleRebase n v) := by
      unfold State.scaleRebase
      repeat' split
      · exact fun x => .refl s x
      next ch _ _ =>
        intro x
        cases x
        case count c => cases ch <;> cases c <;> rfl
        all_goals rfl
      · exact fun x => .refl s x
    have h2 (u : State) : Moves (fun x => x = .consts ∨ ∃ k, x = .car k) u
        (u.modStore fun st => st.putConstant n v) := fun x hx => by
      cases x
      case consts => exact absurd (.inl rfl) hx
      all_goals rfl
    have h3 (u : State) : Moves (fun x => x = .consts ∨ ∃ k, x = .car k) u (u.limitLoads n) := by
      unfold State.limitLoads
      split
      · intro x hx
        cases x
        case car k => exact absurd (.inr ⟨k, rfl⟩) hx
        all_goals rfl
      · exact .refl u
    exact ((h1.moves.trans (h2 _)).trans (h3 _)).trans (State.settle_keeps _).stands.moves
  next => exact .refl s

theorem State.takeLockEnd_moves (s : State) : Moves (· = .lock) s s.takeLockEnd := by
  unfold State.takeLockEnd
  split
  · refine Moves.trans (t := s.modStore fun st => { st with lock := true, cycle := .idle })
      (fun x hx => ?_) ((State.wantArbitration_keeps _).trans (State.settle_keeps _)).stands.moves
    cases x
    case lock => exact absurd rfl hx
    all_goals rfl
  · exact .refl s

theorem State.takeCommitEnd_moves (s : State) :
    Moves (fun x => x = .active ∨ x = .stored ∨ x = .mark) s s.takeCommitEnd := by
  have htimers (u : State) : Stands u u.restartTimers :=
    Stands.foldl (f := State.restartTimer) (fun u p => u.modLink_stands p _) _ u
  unfold State.takeCommitEnd
  split
  next o hc =>
    have h1 : Moves (fun x => x = .active ∨ x = .stored ∨ x = .mark) s
        ((s.modStore fun st => st.commit o).modReck fun r => r.replaceTable o.settings.cMax) :=
      fun x hx => by
        cases x
        case active => exact absurd (.inl rfl) hx
        case stored => exact absurd (.inr (.inl rfl)) hx
        case mark => exact absurd (.inr (.inr rfl)) hx
        all_goals rfl
    have h2 (u : State) : Stands u { u with tableInvalid := false } := fun x => by cases x <;> rfl
    have h3 (u : State) (old : List Slot) :
        Stands u ((u.restartSlots.takeOutputs old).wantArbitration.settle) :=
      (((State.restartSlots_keeps _).trans (State.takeOutputs_keeps _ _)).trans
        ((State.wantArbitration_keeps _).trans (State.settle_keeps _))).stands
    exact h1.trans (((htimers _).trans (h2 _)).trans (h3 _ _)).moves
  next => exact .refl s

theorem State.takeStatusTimer_stands (s : State) : Stands s s.takeStatusTimer := by
  unfold State.takeStatusTimer
  split
  · exact fun x => by cases x <;> rfl
  · exact fun x => .refl s x

theorem Sends.stands {s t : State} (h : Sends s t) : Stands s t := fun x => by
  cases x
  case held => exact h.held
  case inputs => exact h.inputs
  case sample => simp only [Part.Same, h.reck]
  case count => simp only [Part.Same, h.chan]
  case loop | drive | car => simp only [Part.Same, h.recs]
  all_goals simp only [Part.Same, h.store]

/-- What the body of a command that brings no characters may change. -/
theorem timedBody_moves (c : Instr) (s : State) : Moves (MayMove c) s (c.timedBody s) := by
  obtain ⟨hstand, hdwell, hcreep, hrelease, happly, hquick⟩ := s.timers_keep
  cases c
  case encoderEdge dt ch y =>
    exact (s.countEdge_moves ch y).weaken fun x hx => hx ▸ .count dt ch y
  case inputLevelChange dt seen =>
    exact (State.seeInputs_moves seen s).weaken fun x hx => hx ▸ .inputs dt seen
  case sampleTimerExpiry dt => exact s.takeSample_moves.weaken fun x hx => hx ▸ .sample dt
  case standstillTimerExpiry => exact hstand.stands.moves
  case filterTimerExpiry => exact (State.takeFilterExpiry_keeps _ s).stands.moves
  case prepareTimerExpiry => exact s.takePrepareExpiry_keeps.stands.moves
  case dwellTimerExpiry => exact hdwell.stands.moves
  case creepHoldLapse => exact hcreep.stands.moves
  case brakeReleaseDeadlineExpiry => exact hrelease.stands.moves
  case brakeApplyDeadlineExpiry => exact happly.stands.moves
  case effectivenessCheckExpiry => exact s.expireChecks_keeps.stands.moves
  case quickStopTimerExpiry => exact hquick.stands.moves
  case linkTimeout dt p =>
    refine (s.takeLinkTimeout_moves p).weaken fun x hx => ?_
    cases p <;> cases hx
    · exact .lostDrive dt
    · exact .lostCar dt .one
    · exact .lostCar dt .two
    · exact .lostLoop dt
  case frameGapTimeout | missingStopBit | transmitComplete => exact (s.modLink_stands _ _).moves
  case constantWriteComplete dt =>
    refine s.takeConstantEnd_moves.weaken fun x hx => ?_
    rcases hx with rfl | ⟨k, rfl⟩
    · exact .consts dt
    · exact .load dt k
  case lockCycleComplete dt => exact s.takeLockEnd_moves.weaken fun x hx => hx ▸ .lock dt
  case commitCycleComplete dt =>
    refine s.takeCommitEnd_moves.weaken fun x hx => ?_
    rcases hx with rfl | rfl | rfl
    · exact .active dt
    · exact .stored dt
    · exact .mark dt
  case statusTimerExpiry => exact s.takeStatusTimer_stands.moves
  case carCommandPeriodExpiry dt k =>
    show Moves _ s (State.takeCarPeriod k s)
    unfold State.takeCarPeriod
    split
    · exact (s.sendCar_sends k).stands.moves
    · exact .refl s
  case loopCommandPeriodExpiry =>
    show Moves _ s s.takeLoopPeriod
    unfold State.takeLoopPeriod
    split
    · exact s.sendLoop_sends.stands.moves
    · exact .refl s
  all_goals exact .refl s

theorem FrameMoves.of_code {p : Party} {t : MsgType} {x : Part} (h : FrameMoves p t.code x) :
    (t.isState = true ∧ PartyRecord p x) ∨ (t = .commitEdit ∧ x = .mark) := by
  cases h with
  | message t' _ ht _ hs hx =>
    rw [MsgType.ofCode_code] at ht
    cases ht
    exact .inl ⟨hs, hx⟩
  | commit ht _ =>
    rw [MsgType.ofCode_code] at ht
    cases ht
    exact .inr ⟨rfl, rfl⟩

/-- Characters before a frame's end change the receiver alone. -/
theorem State.takeChar_early {s : State} {p : Party} {taken : List Byte}
    (h : (s.link p).rx = .inFrame taken) (hlen : taken.length < 2) (b : Byte) :
    Stands s (s.takeChar p b) := by
  have hfollow : (Receiver.follow (taken ++ [b])).2 = none := by
    match taken, hlen with
    | [], _ => rfl
    | [t], _ =>
      simp only [List.cons_append, List.nil_append, Receiver.follow]
      split_ifs <;> first | rfl | (rename_i hn; simp at hn)
  unfold State.takeChar
  rw [h]
  split
  · exact fun x => .refl s x
  · simp only [Receiver.take]
    split
    · exact s.modLink_stands _ _
    next hf => rw [hf] at hfollow; cases hfollow

/-- What the characters of a command may change at a receiver that has just taken a SYNC. -/
theorem characters_move {c : Instr} {p : Party} (hwf : c.wf = true) (hp : c.sender = some p) {s : State}
    (hrx : (s.link p).rx = .inFrame []) : Moves (MayMove c) s (s.takeChars p c.characters) := by
  have hframe (type : Byte) (pl : List Byte) (crc : BitVec 16) (hpl : fitsFrame pl = true)
      (hm : ∀ x, FrameMoves p type x → crc = Frame.crc ⟨type, pl⟩ → MayMove c x) :
      Moves (MayMove c) s (s.takeChars p (frameChars type pl crc)) :=
    (State.hearChecked_moves hrx type (of_decide_eq_true hpl) crc).weaken fun x hx => hm x hx.1 hx.2
  have hrequest (t : MsgType) (pl : List Byte) (hpl : fitsFrame pl = true) (hs : t.isState = false)
      (hc : t ≠ .commitEdit) :
      Moves (MayMove c) s (s.takeChars p (frameChars t.code pl (Frame.crc ⟨t.code, pl⟩))) := by
    refine hframe _ _ _ hpl fun x hx _ => ?_
    rcases hx.of_code with ⟨h, _⟩ | ⟨h, _⟩
    · rw [hs] at h; cases h
    · exact absurd h hc
  have hmessage (t : MsgType) (pl : List Byte) (hpl : fitsFrame pl = true) (hc : t ≠ .commitEdit)
      (hm : ∀ x, PartyRecord p x → MayMove c x) :
      Moves (MayMove c) s (s.takeChars p (frameChars t.code pl (Frame.crc ⟨t.code, pl⟩))) := by
    refine hframe _ _ _ hpl fun x hx _ => ?_
    rcases hx.of_code with ⟨_, h⟩ | ⟨h, _⟩
    · exact hm x h
    · exact absurd h hc
  cases c <;> cases hp
  case crcFailedFrame dt type pl crc =>
    simp only [Instr.wf, Bool.and_eq_true, bne_iff_ne] at hwf
    exact hframe _ _ _ hwf.1 fun x _ h => absurd h hwf.2
  case badTypeFrame dt type pl =>
    simp only [Instr.wf, Bool.and_eq_true, Option.isNone_iff_eq_none] at hwf
    refine hframe _ _ _ hwf.1 fun x hx _ => ?_
    cases hx with
    | message t x ht => rw [hwf.2] at ht; cases ht
    | commit ht => rw [hwf.2] at ht; cases ht
  case notPermittedFrame dt type pl =>
    simp only [Instr.wf, Bool.and_eq_true, mayNotSend] at hwf
    obtain ⟨hpl, hnot⟩ := hwf
    refine hframe _ _ _ hpl fun x hx _ => ?_
    cases hx with
    | message t x ht hperm => simp [ht, hperm] at hnot
    | commit ht hperm => simp [ht, hperm] at hnot
  case frameStartSync dt => exact (State.takeChar_early hrx (by simp) 0x5A).moves
  case lenAbove192 dt head =>
    have h1 := State.takeChar_early hrx (by simp) head.type
    cases hb : (s.link p).blocked
    · have hrx' : (((s.takeChar p head.type)).link p).rx = .inFrame [head.type] := by
        have := State.takeChar_inFrame (p := p) hb [] head.type
        rw [State.setRx_same hrx] at this
        rw [this]
        cases p <;> rfl
      exact (h1.trans (State.takeChar_early hrx' (by simp) head.len)).moves
    · show Moves _ s (s.takeChars p _)
      rw [State.takeChars_blocked hb]
      exact .refl s
  case callLoop dt pl =>
    simp only [Instr.wf, Bool.and_eq_true] at hwf
    exact hrequest .callLoop pl hwf.1 rfl (by decide)
  case cancelEntry dt pl | cancelAll dt pl =>
    simp only [Instr.wf, Bool.and_eq_true] at hwf
    exact hrequest .cancel pl hwf.1 rfl (by decide)
  case cancelRun dt pl =>
    simp only [Instr.wf, Bool.and_eq_true] at hwf
    exact hrequest .cancel pl hwf.1.1 rfl (by decide)
  case ackFault dt pl | ackFaultAll dt pl =>
    simp only [Instr.wf, Bool.and_eq_true] at hwf
    exact hrequest .ackFault pl hwf.1 rfl (by decide)
  case commitEdit dt pl =>
    refine hframe _ _ _ hwf fun x hx _ => ?_
    rcases FrameMoves.of_code hx with ⟨h, _⟩ | ⟨_, rfl⟩
    · cases h
    · exact .commit dt pl
  case carState dt k pl =>
    refine hmessage .carState pl hwf (by decide) fun x hx => ?_
    cases k <;> cases hx <;> exact .car dt _ pl
  case loopState dt pl => exact hmessage .loopState pl hwf (by decide) fun x hx => hx ▸ .loop dt pl
  case driveState dt pl => exact hmessage .driveState pl hwf (by decide) fun x hx => hx ▸ .drive dt pl
  all_goals exact hrequest _ _ hwf rfl (by decide)

/-- What the event of a command may change. -/
theorem event_moves {c : Instr} (hwf : c.wf = true) (s : State) :
    Moves (fun x => MayMove c x ∨ (s.Astray c ∧ x.Framed)) s (s.event c.elapsed c.body) := by
  have hadvance : Stands s (s.advance c.elapsed) := fun x => by cases x <;> rfl
  have hbody : Moves (fun x => MayMove c x ∨ (s.Astray c ∧ x.Framed)) (s.advance c.elapsed)
      (c.body (s.advance c.elapsed)) := by
    unfold Instr.body
    split
    next p hp =>
      by_cases hrx : (s.link p).rx = .inFrame []
      · exact (characters_move (s := s.advance c.elapsed) hwf hp hrx).weaken fun x hx => .inl hx
      · exact (State.takeChars_moves _ p _).weaken fun x hx => .inr ⟨⟨p, hp, hrx⟩, hx⟩
    next => exact (timedBody_moves c _).weaken fun x hx => .inl hx
  unfold State.event
  split
  · exact .refl s
  · exact (hadvance.moves.trans hbody).trans (State.announce_sends _ _).stands.moves

/-- What a command but RESET may change. -/
theorem exec_moves {c : Instr} (hwf : c.wf = true) (hr : c ≠ .reset) {s t : State}
    (h : exec c s = .next t) : Moves (fun x => MayMove c x ∨ (s.Astray c ∧ x.Framed)) s t := by
  obtain ⟨u, hu, hm⟩ := exec_cases
    (P := fun c s t => c.wf = true → c ≠ .reset →
      Moves (fun x => MayMove c x ∨ (s.Astray c ∧ x.Framed)) s t)
    (fun _ _ hr => absurd rfl hr)
    (fun dt s _ _ x hx => by
      cases x
      case held => exact absurd (.inl (.held dt)) hx
      all_goals rfl)
    (fun c s _ _ hwf _ => event_moves hwf s) c s
  rw [hu] at h
  cases h
  exact hm hwf hr

/-- Settles O3. -/
theorem eachRecordHasItsCommands : Obligations.EachRecordHasItsCommands := by
  intro c s t hwf hr h
  have hmoves := exec_moves hwf hr h
  have hmoved (x : Part) (hx : ¬ x.Same s t) : MayMove c x ∨ (s.Astray c ∧ x.Framed) := by
    by_contra hn
    exact hx (hmoves x hn)
  refine ⟨fun hx => ?_, fun hx => ?_, fun ch hx => ?_, fun hx => ?_, fun hx => ?_, fun hx => ?_,
    fun hx => ?_, fun hx => ?_, fun k hx => ?_, fun hx => ?_, fun hx => ?_⟩
  · rcases hmoved .held hx with hm | ⟨_, ⟨⟩⟩
    cases hm
    exact ⟨_, rfl⟩
  · rcases hmoved .inputs hx with hm | ⟨_, ⟨⟩⟩
    cases hm
    exact ⟨_, _, rfl⟩
  · rcases hmoved (.count ch) hx with hm | ⟨_, ⟨⟩⟩
    cases hm
    exact ⟨_, _, rfl⟩
  · rcases hmoved .sample hx with hm | ⟨_, ⟨⟩⟩
    cases hm
    exact ⟨_, rfl⟩
  · rcases hmoved .consts hx with hm | ⟨_, ⟨⟩⟩
    cases hm
    exact ⟨_, rfl⟩
  · rcases hmoved .lock hx with hm | ⟨_, ⟨⟩⟩
    cases hm
    exact ⟨_, rfl⟩
  · rcases hx with hx | hx
    · rcases hmoved .active hx with hm | ⟨_, ⟨⟩⟩
      cases hm
      exact ⟨_, rfl⟩
    · rcases hmoved .stored hx with hm | ⟨_, ⟨⟩⟩
      cases hm
      exact ⟨_, rfl⟩
  · rcases hmoved .mark hx with hm | ⟨hastray, _⟩
    · cases hm with
      | mark dt => exact .inr ⟨dt, .inl rfl⟩
      | commit dt pl => exact .inr ⟨dt, .inr ⟨pl, rfl⟩⟩
    · exact .inl hastray
  · rcases hmoved (.car k) hx with hm | ⟨hastray, _⟩
    · cases hm with
      | load dt => exact .inr ⟨dt, .inr (.inr rfl)⟩
      | car dt _ pl => exact .inr ⟨dt, .inl ⟨pl, rfl⟩⟩
      | lostCar dt => exact .inr ⟨dt, .inr (.inl rfl)⟩
    · exact .inl hastray
  · rcases hmoved .loop hx with hm | ⟨hastray, _⟩
    · cases hm with
      | loop dt pl => exact .inr ⟨dt, .inl ⟨pl, rfl⟩⟩
      | lostLoop dt => exact .inr ⟨dt, .inr rfl⟩
    · exact .inl hastray
  · rcases hmoved .drive hx with hm | ⟨hastray, _⟩
    · cases hm with
      | drive dt pl => exact .inr ⟨dt, .inl ⟨pl, rfl⟩⟩
      | lostDrive dt => exact .inr ⟨dt, .inr rfl⟩
    · exact .inl hastray

end Sys2Proof.Machine
end

section
/-!
The unit's arithmetic and its tables: the integer square root, the permitted speed, the lookup of a segment
and the order of validation.
-/

namespace Sys2Proof.Machine

open Sys2Proof

set_option Elab.async false

/-! ## The integer square root -/

/-- With fuel for its number of bits, halving the bits finds the floor of the square root. -/
theorem isqrtFuel_spec (fuel n : Nat) (h : n < 4 ^ fuel) :
    isqrtFuel fuel n * isqrtFuel fuel n ≤ n ∧ n < (isqrtFuel fuel n + 1) * (isqrtFuel fuel n + 1) := by
  induction fuel generalizing n with
  | zero =>
    have hn : n = 0 := by omega
    simp [isqrtFuel, hn]
  | succ fuel ih =>
    by_cases hn : n = 0
    · simp [isqrtFuel, hn]
    obtain ⟨hlow, hhigh⟩ := ih (n / 4) (by rw [pow_succ] at h; omega)
    simp only [isqrtFuel, if_neg hn]
    generalize isqrtFuel fuel (n / 4) = r at hlow hhigh ⊢
    have hquarter : 4 * (n / 4) ≤ n ∧ n < 4 * (n / 4) + 4 := by omega
    split_ifs with hr
    · exact ⟨hr, by nlinarith⟩
    · exact ⟨by nlinarith, by omega⟩

theorem lt_four_pow (n : Nat) : n < 4 ^ n := Nat.lt_pow_self (by decide)

/-- Settles O16: the value's own size is fuel enough. -/
theorem isqrtIsFloorRoot : Obligations.IsqrtIsFloorRoot := by
  intro x hx
  obtain ⟨n, rfl⟩ := Int.eq_ofNat_of_zero_le hx
  obtain ⟨hlow, hhigh⟩ := isqrtFuel_spec n n (lt_four_pow n)
  refine ⟨Int.natCast_nonneg _, ?_, ?_⟩
  · show (isqrtFuel n n : Int) * isqrtFuel n n ≤ n
    exact_mod_cast hlow
  · show (n : Int) < (isqrtFuel n n + 1) * (isqrtFuel n n + 1)
    exact_mod_cast hhigh

/-! ## The permitted speed -/

/-- Settles O15. -/
theorem permittedSpeedIsLeast : Obligations.PermittedSpeedIsLeast :=
  fun _ _ _ => ⟨least_mem _ _, least_le _ _⟩

/-! ## The lookup -/

/-- The search from index i ends at the acc it began with or at the highest index whose start is at or
below the position. -/
theorem highestAtOrBelow_spec (p : Int) (gs : List Segment) (i acc : Nat) :
    (highestAtOrBelow p gs i acc = acc ∧ ∀ g ∈ gs, p < g.start)
    ∨ ∃ j g, highestAtOrBelow p gs i acc = i + j ∧ gs[j]? = some g ∧ g.start ≤ p
      ∧ ∀ k h, gs[k]? = some h → h.start ≤ p → k ≤ j := by
  induction gs generalizing i acc with
  | nil => exact .inl ⟨rfl, fun _ h => absurd h List.not_mem_nil⟩
  | cons g gs ih =>
    rw [highestAtOrBelow]
    rcases ih (i + 1) (if g.start ≤ p then i else acc) with ⟨hacc, hall⟩ | ⟨j, h, hj, hget, hle, hmax⟩
    · by_cases hg : g.start ≤ p
      · refine .inr ⟨0, g, by rw [hacc, if_pos hg]; rfl, rfl, hg, fun k h hk hle => ?_⟩
        match k with
        | 0 => exact le_refl _
        | k + 1 => exact absurd hle (not_le.2 (hall h (List.mem_of_getElem? hk)))
      · refine .inl ⟨by rw [hacc, if_neg hg], fun x hx => ?_⟩
        rcases List.mem_cons.1 hx with rfl | hx
        · exact not_le.1 hg
        · exact hall x hx
    · refine .inr ⟨j + 1, h, by rw [hj]; omega, hget, hle, fun k x hk hx => ?_⟩
      match k with
      | 0 => exact Nat.zero_le _
      | k + 1 => exact Nat.succ_le_succ (hmax k x hk hx)

/-- Settles O19: segment 0 starts at 0, so a position from 0 on lies at or above some start. -/
theorem lookupFindsSegment : Obligations.LookupFindsSegment := by
  intro o lr p g hg hstart
  refine ⟨fun hp => if_pos hp, fun hp hlr => ?_, fun hp hlr => ?_⟩
  · have hlen : 0 < o.segments.length := (List.getElem?_eq_some_iff.1 hg).1
    rw [OperatingSet.lookup, if_neg (not_lt.2 hp), if_pos hlr, OperatingSet.lastSeg]
    omega
  · rw [OperatingSet.lookup, if_neg (not_lt.2 hp), if_neg (not_le.2 hlr)]
    rcases highestAtOrBelow_spec p o.segments 0 0 with ⟨-, hall⟩ | ⟨j, h, hj, hget, hle, hmax⟩
    · exact absurd (hall g (List.mem_of_getElem? hg)) (by omega)
    · rw [hj, Nat.zero_add]
      exact ⟨⟨h, hget, hle⟩, hmax⟩

/-! ## Validation -/

/-- The number of the first item that does not hold. -/
def firstFailure (items : List Bool) : Option Nat := (items.findIdx? (! ·)).map (· + 1)

theorem OperatingSet.validate_firstFailure (o : OperatingSet) (lr : Int) :
    o.validate (some lr) = firstFailure [o.item1 lr, o.item2 lr, o.item3 lr, o.item4, o.item5 lr,
      o.item6 lr, o.item7 lr, o.item8, o.item9, o.item10] := by
  unfold OperatingSet.validate
  simp only
  cases o.item1 lr
  · rfl
  cases o.item2 lr
  · rfl
  cases o.item3 lr
  · rfl
  cases o.item4
  · rfl
  cases o.item5 lr
  · rfl
  cases o.item6 lr
  · rfl
  cases o.item7 lr
  · rfl
  cases o.item8
  · rfl
  cases o.item9
  · rfl
  cases o.item10 <;> rfl

/-- Settles O20. -/
theorem validationReportsFirstFailure : Obligations.ValidationReportsFirstFailure := by
  intro o lr items
  have hvalidate : o.validate (some lr) = firstFailure items := o.validate_firstFailure lr
  refine ⟨rfl, ?_, fun n hn => ?_⟩
  · rw [hvalidate]
    simp [firstFailure, List.findIdx?_eq_none_iff]
  · rw [hvalidate] at hn
    obtain ⟨i, hi, rfl⟩ := Option.map_eq_some_iff.1 hn
    obtain ⟨hlt, hfail, hbefore⟩ := List.findIdx?_eq_some_iff_getElem.1 hi
    have hlt' : i < 10 := hlt
    refine ⟨by omega, by omega, ?_, fun j hj => ?_⟩
    · rw [Nat.add_sub_cancel, List.getElem?_eq_getElem hlt]
      simpa using hfail
    · have hj' : j < i := by omega
      rw [List.getElem?_eq_getElem (by omega)]
      simpa using hbefore j hj'

end Sys2Proof.Machine
end

section
/-!
The field interface: encoder edges, the levels of the inputs, what a filter slot does at a change of its
input, and the edges of the checkpoint detectors.
-/

namespace Sys2Proof.Machine

open Sys2Proof

set_option Elab.async false

/-! ## Events -/

/-- Beyond its body an event of a part that runs only sends messages. -/
theorem State.event_sends {s : State} (h : s.held = false) (dt : Nat) (body : State → State) :
    Sends (body (s.advance dt)) (s.event dt body) := by
  rw [State.event_runs h]
  exact State.announce_sends _ _

/-- Settles O7. -/
theorem encoderEdgeCounts : Obligations.EncoderEdgeCounts := fun dt ch sense s hr =>
  congrArg Host.Outcome.next
    (State.event_same (t := State.countEdge ch sense (s.advance dt)) hr.1 dt rfl hr.2
      ⟨rfl, rfl, rfl, fun _ => rfl⟩)

/-! ## The levels of the inputs -/

theorem State.matchEdge_outer (s : State) (c : Checkpoint) (j : Nat) (k : Car) :
    Outer s (s.matchEdge c j k) := by
  unfold State.matchEdge
  simp only
  repeat' split
  · exact .refl s
  · constructor <;> rfl
  · exact (show Outer s _ by constructor <;> rfl).trans (State.reformTarget_keeps _).settles.outer

theorem State.inputEdge_outer (s : State) (n : Fin 32) : Outer s (s.inputEdge n) := by
  unfold State.inputEdge State.checkpointEdge State.matchedEdge State.branchReference
  repeat' split
  all_goals first
    | exact s.matchEdge_outer _ _ _
    | exact (s.takeReports_keeps _).settles.outer
    | exact (s.reference_keeps _ (Zone.set_length _ _ _).1 (Zone.set_length _ _ _).2).settles.outer
    | exact .refl s

/-- The inputs that rise at a sampling instant. -/
def State.risers (s : State) (seen : List (Fin 32 × Nat)) : List (Fin 32) :=
  allInputs.filter fun n => ({ s with inputs := s.seenLevels seen } : State).input n && !s.input n

/-- The state once the detectors' edges of a sampling instant have been taken. -/
def State.edged (s : State) (seen : List (Fin 32 × Nat)) : State :=
  (s.risers seen).foldl State.inputEdge { s with inputs := s.seenLevels seen }

theorem State.seeInputs_eq (seen : List (Fin 32 × Nat)) (s : State) :
    State.seeInputs seen s = (s.edged seen).settle := rfl

theorem State.edged_outer (s : State) (seen : List (Fin 32 × Nat)) :
    Outer { s with inputs := s.seenLevels seen } (s.edged seen) := by
  have hfold (l : List (Fin 32)) : ∀ u : State, Outer u (l.foldl State.inputEdge u) := by
    induction l with
    | nil => exact fun u => .refl u
    | cons n l ih => exact fun u => (u.inputEdge_outer n).trans (ih _)
  exact hfold (s.risers seen) _

/-- A sampling instant changes the inputs to the levels seen, and nothing of what lies outside the run. -/
theorem State.seeInputs_outer (seen : List (Fin 32 × Nat)) (s : State) :
    Outer { s with inputs := s.seenLevels seen } (State.seeInputs seen s) :=
  (s.edged_outer seen).trans (State.settle_keeps _).settles.outer

/-- The level of an input after the levels seen have been written. -/
theorem seenLevels_getD (seen : List (Fin 32 × Nat)) (hseen : (seen.map (·.1)).Nodup) :
    ∀ ins : List Bool, ins.length = 32 → ∀ n : Fin 32,
      (seen.foldl (fun ins nv => ins.set nv.1.val (levelOf nv.2 (ins.getD nv.1.val false))) ins).getD
          n.val false
        = match seen.find? (fun nv => decide (nv.1 = n)) with
          | some nv => levelOf nv.2 (ins.getD n.val false)
          | none => ins.getD n.val false := by
  induction seen with
  | nil => exact fun _ _ _ => rfl
  | cons nv seen ih =>
    intro ins hins n
    obtain ⟨hnot, hrest⟩ := List.nodup_cons.1 (List.map_cons ▸ hseen)
    rw [List.foldl_cons, ih hrest _ (by simpa using hins) n]
    by_cases hn : nv.1 = n
    · subst hn
      have hnone : seen.find? (fun x => decide (x.1 = nv.1)) = none := by
        rw [List.find?_eq_none]
        intro x hx hdec
        exact hnot (List.mem_map.2 ⟨x, hx, of_decide_eq_true hdec⟩)
      rw [hnone, List.find?_cons_of_pos (by simp)]
      simp [List.getD_eq_getElem?_getD, hins]
    · have hval : nv.1.val ≠ n.val := fun e => hn (Fin.ext e)
      rw [List.find?_cons_of_neg (by simpa using hn)]
      simp [List.getD_eq_getElem?_getD, List.getElem?_set_ne hval]

/-- What an input stands at after a sampling instant (R175). -/
theorem State.seeInputs_input {s : State} (h : s.inputs.length = 32) {seen : List (Fin 32 × Nat)}
    (hseen : (seen.map (·.1)).Nodup) (n : Fin 32) :
    (∀ mv, (n, mv) ∈ seen → (State.seeInputs seen s).input n = levelOf mv (s.input n))
    ∧ (n ∉ seen.map (·.1) → (State.seeInputs seen s).input n = s.input n) := by
  have hinput : (State.seeInputs seen s).input n
      = match seen.find? (fun nv => decide (nv.1 = n)) with
        | some nv => levelOf nv.2 (s.inputs.getD n.val false)
        | none => s.inputs.getD n.val false := by
    rw [State.input, (State.seeInputs_outer seen s).inputs]
    exact seenLevels_getD seen hseen s.inputs h n
  refine ⟨fun mv hmem => ?_, fun hnot => ?_⟩
  · rw [hinput]
    cases hfind : seen.find? (fun nv => decide (nv.1 = n)) with
    | none =>
      have hnot := List.find?_eq_none.1 hfind (n, mv) hmem
      simp at hnot
    | some nv =>
      have hnv : nv = (n, mv) := List.inj_on_of_nodup_map hseen (List.mem_of_find?_eq_some hfind) hmem
        (by simpa using List.find?_some hfind)
      rw [hnv]
      rfl
  · rw [hinput]
    have hfind : seen.find? (fun nv => decide (nv.1 = n)) = none := by
      rw [List.find?_eq_none]
      intro x hx hdec
      exact hnot (List.mem_map.2 ⟨x, hx, by simpa using hdec⟩)
    rw [hfind]
    rfl

theorem levelOf_cases (mv : Nat) (was : Bool) : (15000 ≤ mv → levelOf mv was = true)
    ∧ (mv ≤ 5000 → levelOf mv was = false) ∧ (5000 < mv → mv < 15000 → levelOf mv was = was) := by
  unfold levelOf
  refine ⟨fun h => if_pos h, fun h => ?_, fun h h' => ?_⟩
  · rw [if_neg (by omega), if_pos h]
  · rw [if_neg (by omega), if_neg (by omega)]

/-- Settles O8. -/
theorem inputLevelsFollowVoltages : Obligations.InputLevelsFollowVoltages := by
  intro dt seen s hheld hshape hseen
  have hsends := State.event_sends hheld dt (State.seeInputs seen)
  have houter := State.seeInputs_outer seen (s.advance dt)
  have hinput (n : Fin 32) : (s.event dt (State.seeInputs seen)).input n
      = (State.seeInputs seen (s.advance dt)).input n := by
    unfold State.input
    rw [hsends.inputs]
  have hkept := State.seeInputs_input (s := s.advance dt) hshape.1 hseen
  refine ⟨_, rfl, fun n mv hmem hmv => ?_, fun n mv hmem hmv => ?_, fun n mv hmem hlow hhigh => ?_,
    fun n hnot => ?_, ?_, ?_, ?_⟩
  · rw [hinput, (hkept n).1 mv hmem]
    exact (levelOf_cases mv _).1 hmv
  · rw [hinput, (hkept n).1 mv hmem]
    exact (levelOf_cases mv _).2.1 hmv
  · rw [hinput, (hkept n).1 mv hmem]
    exact (levelOf_cases mv _).2.2 hlow hhigh
  · rw [hinput]
    exact (hkept n).2 hnot
  · exact hsends.store.trans houter.store
  · exact hsends.recs.trans houter.recs
  · exact hsends.time.trans houter.time

/-! ## What a referencing and a match leave -/

theorem State.takeCreepTarget_eq (s : State) (x : Int) :
    ∃ r t p, s.takeCreepTarget x = { s with run := r, target := t, prof := p } := by
  unfold State.takeCreepTarget
  repeat' split
  all_goals exact ⟨_, _, _, rfl⟩

/-- A referencing puts both channels at the new s and clears corrections, misses and zones (R36). -/
theorem State.reference_eq (s : State) (x : Int) (zones : PerCar (List Zone)) :
    ∃ r t p d, s.reference x zones =
      { s with
        run := r, target := t, prof := p
        chan := ⟨s.chan.main.rebase x, s.chan.alt.rebase x⟩
        reck :=
          { s.reck with
            referenced := true, c := ⟨0, 0⟩, miss := ⟨0, 0⟩, zones := zones, hasPrev := false
            disagree := d } } := by
  unfold State.reference
  simp only
  generalize hu : State.evalDisagree _ = u
  obtain ⟨r, t, p, h⟩ := u.takeCreepTarget_eq x
  rw [h]
  subst hu
  exact ⟨_, _, _, _, rfl⟩

theorem State.reformTarget_eq (s : State) :
    ∃ t r, s.reformTarget = { s with target := t, run := r } := by
  unfold State.reformTarget
  repeat' split
  all_goals exact ⟨_, _, rfl⟩

/-- A match sets the correction, the miss counter and the zone record of its car (R39). -/
theorem State.matchEdge_eq (s : State) (c : Checkpoint) (j : Nat) (k : Car)
    (h : s.reck.zone k j ≠ .withinMatched) :
    ∃ t r, s.matchEdge c j k =
      { s with
        target := t, run := r
        reck :=
          { s.reck.setZone k j .withinMatched with
            c := s.reck.c.set k (clamp (s.reck.c.get k + (c.pos - s.edgePosition k))
              (-s.settings.cMax) s.settings.cMax)
            miss := s.reck.miss.set k 0 } } := by
  unfold State.matchEdge
  rw [if_neg h]
  simp only
  split
  · exact ⟨_, _, rfl⟩
  · exact State.reformTarget_eq _

/-! ## A slot and its input -/

/-- The slots that a detection leaves are those of its bank step. -/
theorem State.detect_slots (s : State) : s.detect.slots = s.returnToMain.takeSources.slots := by
  have hfail (u : State) : u.failover.slots = u.slots := by
    unfold State.failover
    split
    · exact (State.takeReports_steady _ _).slots
    · rfl
  have hterm (u : State) : u.terminalReference.slots = u.slots := by
    unfold State.terminalReference
    simp only
    split
    · obtain ⟨r, t, p, d, h⟩ := u.reference_eq _ _
      rw [h]
    · rfl
  rw [State.detect, (State.refresh_steady _).slots, hterm, hfail, (State.bankStep_keeps _).2.2.2]

theorem State.returnToMain_slots (s : State) : s.returnToMain.slots = s.slots := by
  unfold State.returnToMain
  split <;> rfl

/-- What a slot comes to at a level of its source (R46, R47). -/
def Slot.see (cfg : FilterConfig) (now : Nat) (level : Bool) (sl : Slot) : Slot :=
  if level = sl.level then sl else sl.take cfg now level

theorem Slot.see_level (cfg : FilterConfig) (now : Nat) (level : Bool) (sl : Slot) :
    (sl.see cfg now level).level = level := by
  unfold Slot.see
  split
  next h => exact h.symm
  next => exact Slot.take_level _ _ _ _

/-- A slot that is mapped to an input takes that input's level in a round. -/
theorem State.round_slot {s : State} {i : Nat} {n : Fin 32}
    (h : (s.store.active.filter i).source = .input n) :
    s.round.slots[i]? = (s.slots[i]?).map (Slot.see (s.store.active.filter i) s.time (s.input n)) := by
  have hreturn := s.returnToMain_settles.outer
  rw [State.round, (State.runStep_steady _).slots, State.detect_slots, State.takeSources_getElem?,
    State.returnToMain_slots, hreturn.store, hreturn.time]
  have hlevel : s.returnToMain.sourceLevel (s.store.active.filter i).source = s.input n := by
    rw [h, State.sourceLevel, State.input, hreturn.inputs, ← State.input]
  simp only [hlevel]
  rfl

/-- Such a slot takes that level in the first round of a settling and stands from then on. -/
theorem State.settle_slot {s : State} {i : Nat} {n : Fin 32}
    (h : (s.store.active.filter i).source = .input n) :
    s.settle.slots[i]? = (s.slots[i]?).map (Slot.see (s.store.active.filter i) s.time (s.input n)) := by
  have hstill (k : Nat) : ∀ u : State, (u.store.active.filter i).source = .input n →
      (∀ sl, u.slots[i]? = some sl → sl.level = u.input n) → (State.rounds k u).slots[i]? = u.slots[i]? := by
    induction k with
    | zero => exact fun u _ _ => rfl
    | succ k ih =>
      intro u hu hl
      have hr := u.round_settles.outer
      have hinput : u.round.input n = u.input n := by unfold State.input; rw [hr.inputs]
      have hsame : u.round.slots[i]? = u.slots[i]? := by
        rw [State.round_slot hu]
        cases hsl : u.slots[i]? with
        | none => rfl
        | some sl => rw [Option.map_some, Slot.see, if_pos (hl sl hsl).symm]
      rw [State.rounds, ih u.round (by rw [hr.store]; exact hu) (fun sl hsl => ?_), hsame]
      rw [hinput]
      exact hl sl (hsame ▸ hsl)
  have hr := s.round_settles.outer
  have hinput : s.round.input n = s.input n := by unfold State.input; rw [hr.inputs]
  rw [State.settle_succ, hstill 7 s.round (by rw [hr.store]; exact h) (fun sl hsl => ?_),
    State.round_slot h]
  rw [State.round_slot h] at hsl
  obtain ⟨sl', -, rfl⟩ := Option.map_eq_some_iff.1 hsl
  rw [hinput, Slot.see_level]

theorem State.inputEdge_slots (s : State) (n : Fin 32) : (s.inputEdge n).slots = s.slots := by
  have hmatch (c : Checkpoint) (j : Nat) (k : Car) : (s.matchEdge c j k).slots = s.slots := by
    by_cases h : s.reck.zone k j = .withinMatched
    · rw [State.matchEdge, if_pos h]
    · obtain ⟨t, p, e⟩ := s.matchEdge_eq c j k h
      rw [e]
  have href (x : Int) (zones : PerCar (List Zone)) : (s.reference x zones).slots = s.slots := by
    obtain ⟨r, t, p, d, e⟩ := s.reference_eq x zones
    rw [e]
  unfold State.inputEdge State.checkpointEdge State.matchedEdge State.branchReference
  repeat' split
  all_goals first
    | exact hmatch _ _ _
    | exact (s.takeReports_steady _).slots
    | exact href _ _
    | rfl

theorem Slot.take_eq (cfg : FilterConfig) (now : Nat) (level : Bool) (sl : Slot) :
    sl.take cfg now level
      = if cfg.enabled = true ∧ 0 < (if level = true then cfg.setMs else cfg.clearMs) then
          { sl with
            level := level
            due := if level = sl.output then none
              else some (now + 1000 * (if level = true then cfg.setMs else cfg.clearMs)) }
        else ⟨level, level, none, sl.flag || (sl.output != level)⟩ := by
  have hms (c : Nat) : now + ms c = now + 1000 * c := by unfold ms; omega
  unfold Slot.take Slot.drive
  simp only [hms]
  generalize (if level = true then cfg.setMs else cfg.clearMs) = count
  by_cases hen : cfg.enabled = true
  · by_cases hl : level = sl.output
    · by_cases hc : 0 < count
      · simp [hen, hl, hc]
      · simp [hen, hl, hc]
    · by_cases hc : 0 < count
      · simp [hen, hl, hc, show count ≠ 0 by omega]
      · simp [hen, hl, show count = 0 by omega]
  · simp [hen]

theorem State.edged_slots (s : State) (seen : List (Fin 32 × Nat)) :
    (s.edged seen).slots = s.slots := by
  have hfold (l : List (Fin 32)) : ∀ u : State, (l.foldl State.inputEdge u).slots = u.slots := by
    induction l with
    | nil => exact fun u => rfl
    | cons n l ih => exact fun u => (ih _).trans (u.inputEdge_slots n)
  exact hfold _ _

theorem State.seeInputs_slots (seen : List (Fin 32 × Nat)) (s : State) {i : Nat} {n : Fin 32}
    (h : (s.store.active.filter i).source = .input n) :
    (State.seeInputs seen s).slots[i]? = (s.slots[i]?).map
      (Slot.see (s.store.active.filter i) s.time ((State.seeInputs seen s).input n)) := by
  have houter := s.edged_outer seen
  have hinput : (State.seeInputs seen s).input n = (s.edged seen).input n := by
    unfold State.input
    rw [(State.seeInputs_outer seen s).inputs, houter.inputs]
  rw [hinput, State.seeInputs_eq, State.settle_slot (n := n) (by rw [houter.store]; exact h),
    State.edged_slots, houter.store, houter.time]

/-- Settles O9: the slot takes the input's level in the first round of the event. -/
theorem slotTakesItsInput : Obligations.SlotTakesItsInput := by
  intro dt n mv i sl s hheld hshape hsl hsource hlevel hnew level f count
  refine ⟨_, rfl, ?_⟩
  have hinput : (State.seeInputs [(n, mv)] (s.advance dt)).input n = level :=
    (State.seeInputs_input (s := s.advance dt) hshape.1 (by simp) n).1 mv (by simp)
  rw [(State.event_sends hheld dt _).slots, State.seeInputs_slots _ (s.advance dt) hsource, hinput]
  show (s.slots[i]?).map _ = _
  rw [hsl, Option.map_some, Slot.see, if_neg (by rw [hlevel]; exact hnew), Slot.take_eq]
  rfl

/-! ## The reckoning while an event settles -/

/-- What the settling of an event leaves of the reckoning of a part that is REFERENCED: corrections, miss
counters and zones, and one position of both channels, whichever the source. -/
structure Tied (s t : State) : Prop where
  referenced : t.reck.referenced = s.reck.referenced
  corrections : t.reck.c = s.reck.c
  misses : t.reck.miss = s.reck.miss
  zones : t.reck.zones = s.reck.zones
  previous : t.reck.hasPrev = s.reck.hasPrev
  joined : ∀ x, (∀ ch, s.chanPos ch = x) → ∀ ch, t.chanPos ch = x

theorem Tied.refl (s : State) : Tied s s := ⟨rfl, rfl, rfl, rfl, rfl, fun _ h => h⟩

theorem Tied.trans {s t u : State} (a : Tied s t) (b : Tied t u) : Tied s u :=
  ⟨b.referenced.trans a.referenced, b.corrections.trans a.corrections, b.misses.trans a.misses,
    b.zones.trans a.zones, b.previous.trans a.previous, fun x h => b.joined x (a.joined x h)⟩

theorem Steady.tied {s t : State} (h : Steady s t) (o : Outer s t) : Tied s t where
  referenced := by rw [h.reck]
  corrections := by rw [h.reck]
  misses := by rw [h.reck]
  zones := by rw [h.reck]
  previous := by rw [h.reck]
  joined x hx ch := by rw [State.chanPos_same h.chan o.store, hx]

theorem State.takeReports_tied (s : State) (rs : List Report) : Tied s (s.takeReports rs) :=
  (s.takeReports_steady rs).tied (s.takeReports_settles rs).outer

/-- A channel that takes up another's position stands where that stood (R24). -/
theorem State.rebase_joined {s t : State} (ch src : Channel)
    (hchan : t.chan = s.chan.set ch ((s.chan.get ch).rebase (s.chanPos src))) (hstore : t.store = s.store)
    (x : Int) (hx : ∀ ch, s.chanPos ch = x) (ch' : Channel) : t.chanPos ch' = x := by
  have hscale : t.scale = s.scale := by
    funext ch
    simp only [State.scale, State.const, hstore]
  by_cases hch : ch' = ch
  · subst hch
    have hget : t.chan.get ch' = (s.chan.get ch').rebase (s.chanPos src) := by
      rw [hchan]
      cases ch' <;> rfl
    rw [State.chanPos, hget, ChannelRecord.rebase_position, hx]
  · have hget : t.chan.get ch' = s.chan.get ch' := by
      rw [hchan]
      cases ch <;> cases ch' <;> first | rfl | exact absurd rfl hch
    rw [State.chanPos, hget, hscale]
    exact hx ch'

theorem State.detect_tied {s : State} (h : s.reck.referenced = true) : Tied s s.detect := by
  have hreturn : Tied s s.returnToMain := by
    unfold State.returnToMain
    split
    · exact ⟨rfl, rfl, rfl, rfl, rfl, State.rebase_joined .main .alt rfl rfl⟩
    · exact .refl s
  have hbank (u : State) : Tied u u.bankStep :=
    (show Tied u u.takeSources from ⟨rfl, rfl, rfl, rfl, rfl, fun _ h => h⟩).trans
      ((State.takeOutputs_steady _ _).tied (State.takeOutputs_settles _ _).outer)
  have hfail (u : State) : Tied u u.failover := by
    unfold State.failover
    split
    · refine Tied.trans (t := ((u.modChan .alt fun c => c.rebase (u.chanPos .main)).setSource
        .alt).evalDisagree) ?_ (State.takeReports_tied _ _)
      exact ⟨rfl, rfl, rfl, rfl, rfl, State.rebase_joined .alt .main rfl rfl⟩
    · exact .refl u
  have hthree := (hreturn.trans (hbank _)).trans (hfail _)
  rw [State.detect, State.terminalReference_same (hthree.referenced.trans h)]
  exact hthree.trans ((State.refresh_steady _).tied (State.refresh_settles _).outer)

theorem State.settle_tied {s : State} (h : s.reck.referenced = true) : Tied s s.settle := by
  have key (k : Nat) : ∀ u : State, u.reck.referenced = true → Tied u (State.rounds k u) := by
    induction k with
    | zero => exact fun u _ => .refl u
    | succ k ih =>
      intro u hu
      have hround : Tied u u.round := (State.detect_tied hu).trans
        ((State.runStep_steady _).tied (State.runStep_settles _).outer)
      exact hround.trans (ih _ (hround.referenced.trans hu))
  exact key 8 s h

/-! ## Edges of the checkpoint detectors -/

/-- Only the input that has risen has an edge. -/
theorem State.risers_single {s : State} (h : s.inputs.length = 32) {n : Fin 32} {mv : Nat}
    (hmv : 15000 ≤ mv) (hlow : s.input n = false) : s.risers [(n, mv)] = [n] := by
  have hrise (m : Fin 32) : (({ s with inputs := s.seenLevels [(n, mv)] } : State).input m && !s.input m)
      = (m == n) := by
    have hlevel : levelOf mv (s.inputs.getD n.val false) = true := (levelOf_cases mv _).1 hmv
    by_cases hm : m = n
    · subst hm
      simp only [State.input, State.seenLevels, List.foldl_cons, List.foldl_nil, hlevel] at hlow ⊢
      rw [hlow]
      simp [List.getD_eq_getElem?_getD, h]
    · have hval : n.val ≠ m.val := fun e => hm (Fin.ext e.symm)
      have hsame : ({ s with inputs := s.seenLevels [(n, mv)] } : State).input m = s.input m := by
        simp [State.input, State.seenLevels, List.getD_eq_getElem?_getD, List.getElem?_set_ne hval]
      rw [hsame, Bool.and_not_self, beq_eq_false_iff_ne.2 hm]
  unfold State.risers allInputs
  simp only [hrise]
  rw [List.filter_beq, List.count_eq_one_of_mem (List.nodup_finRange 32) (List.mem_finRange n)]
  rfl

/-- The checkpoint in force that names an input takes its edge (R37). -/
theorem State.inputEdge_checkpoint {s : State} {n : Fin 32} {j : Nat} {c : Checkpoint}
    (hc : s.store.active.checkpoints[j]? = some c) (hn : c.input = n)
    (honly : ∀ i c', s.store.active.checkpoints[i]? = some c' → c'.input = n → i = j) :
    s.inputEdge n = s.checkpointEdge c j := by
  have hfind : s.store.active.checkpoints.zipIdx.find? (fun ci => decide (ci.1.input = n))
      = some (c, j) := by
    have hmem : (c, j) ∈ s.store.active.checkpoints.zipIdx := List.mem_zipIdx_iff_getElem?.2 hc
    cases hf : s.store.active.checkpoints.zipIdx.find? (fun ci => decide (ci.1.input = n)) with
    | none => exact absurd hn (by simpa using List.find?_eq_none.1 hf _ hmem)
    | some ci =>
      obtain ⟨c', i⟩ := ci
      have hi : s.store.active.checkpoints[i]? = some c' :=
        List.mem_zipIdx_iff_getElem?.1 (List.mem_of_find?_eq_some hf)
      obtain rfl := honly i c' hi (by simpa using List.find?_some hf)
      rw [hi] at hc
      cases hc
      rfl
  unfold State.inputEdge
  rw [hfind]

/-- A sampling instant at which one detector's input rises. -/
theorem State.seeInputs_edge {s : State} (h : s.inputs.length = 32) {n : Fin 32} {mv j : Nat}
    {c : Checkpoint} (hmv : 15000 ≤ mv) (hlow : s.input n = false)
    (hc : s.store.active.checkpoints[j]? = some c) (hn : c.input = n)
    (honly : ∀ i c', s.store.active.checkpoints[i]? = some c' → c'.input = n → i = j) :
    State.seeInputs [(n, mv)] s
      = (({ s with inputs := s.seenLevels [(n, mv)] } : State).checkpointEdge c j).settle := by
  rw [State.seeInputs_eq, State.edged, State.risers_single h hmv hlow, List.foldl_cons, List.foldl_nil,
    State.inputEdge_checkpoint (s := { s with inputs := s.seenLevels [(n, mv)] }) hc hn honly]

theorem Reckoner.zone_setZone (r : Reckoner) (k : Car) (j : Nat) (z : Zone)
    (h : j < (r.zones.get k).length) : (r.setZone k j z).zone k j = z := by
  cases k <;> simp_all [Reckoner.zone, Reckoner.setZone, PerCar.get, PerCar.set,
    List.getD_eq_getElem?_getD]

/-- The rope coordinate to which a branch checkpoint ties car k's track (R36). -/
def State.tiedRope (s : State) (c : Checkpoint) : Car → Int
  | .one => c.pos + s.stretchAtTrack .one c.pos
  | .two => s.lr - c.pos - s.stretchAtTrack .two c.pos

theorem State.checkpointEdge_branch {s : State} (href : s.reck.referenced = false) {c : Checkpoint}
    {k : Car} (hbranch : c.branch.car = some k) (j : Nat) :
    s.checkpointEdge c j
      = s.reference (s.tiedRope c k) (Zone.none.set k ((Zone.none.get k).set j .withinMatched)) := by
  unfold State.checkpointEdge State.branchReference
  simp only [href, hbranch]
  cases k <;> rfl

/-- Settles O10: the edge is a referencing, and what it leaves of the reckoning settles unchanged. -/
theorem branchEdgeReferences : Obligations.BranchEdgeReferences := by
  intro dt n mv j c k s hheld hshape href hmv hlow hc hj hn hbranch honly
  have hsends := State.event_sends hheld dt (State.seeInputs [(n, mv)])
  rw [State.seeInputs_edge (s := s.advance dt) hshape.1 hmv hlow hc hn honly] at hsends
  generalize hu : ({ s.advance dt with inputs := (s.advance dt).seenLevels [(n, mv)] } : State) = u
    at hsends
  have hrope : u.tiedRope c k = s.tiedRope c k := by subst hu; cases k <;> rfl
  rw [State.checkpointEdge_branch (by subst hu; exact href) hbranch, hrope] at hsends
  obtain ⟨r, t, p, d, he⟩ := u.reference_eq (s.tiedRope c k)
    (Zone.none.set k ((Zone.none.get k).set j .withinMatched))
  have htied := State.settle_tied (s := u.reference (s.tiedRope c k)
    (Zone.none.set k ((Zone.none.get k).set j .withinMatched))) (by rw [he])
  have hjoined (ch : Channel) : (u.reference (s.tiedRope c k)
      (Zone.none.set k ((Zone.none.get k).set j .withinMatched))).chanPos ch = s.tiedRope c k := by
    rw [he]
    cases ch <;> exact ChannelRecord.rebase_position _ _ _
  refine ⟨_, rfl, ?_⟩
  rw [hsends.reck]
  refine ⟨by rw [htied.referenced, he], by rw [htied.corrections, he], by rw [htied.misses, he], ?_,
    by rw [htied.previous, he], fun ch => ?_⟩
  · unfold Reckoner.zone
    rw [htied.zones, he]
    cases k <;> simp [Zone.none, PerCar.get, PerCar.set, List.getD_eq_getElem?_getD, hj]
  · rw [State.chanPos_same hsends.chan hsends.store, htied.joined _ hjoined ch]
    cases k <;> rfl

/-- Settles O11: the sole candidate is matched, and what a match leaves of the reckoning settles
unchanged. -/
theorem matchedEdgeCorrects : Obligations.MatchedEdgeCorrects := by
  intro dt n mv j c k s hheld hshape href hsample hmv hlow hc hj hn honly hcand hother hzone
  have hsends := State.event_sends hheld dt (State.seeInputs [(n, mv)])
  rw [State.seeInputs_edge (s := s.advance dt) hshape.1 hmv hlow hc hn honly] at hsends
  generalize hu : ({ s.advance dt with inputs := (s.advance dt).seenLevels [(n, mv)] } : State) = u
    at hsends
  have hreck : u.reck = s.reck := by subst hu; rfl
  have hsettings : u.settings = s.settings := by subst hu; rfl
  have hedge : u.edgePosition k = (s.advance dt).edgePosition k := by subst hu; rfl
  have hmatch : u.checkpointEdge c j = u.matchEdge c j k := by
    have hone : u.isCandidate c .one = (s.advance dt).isCandidate c .one := by subst hu; rfl
    have htwo : u.isCandidate c .two = (s.advance dt).isCandidate c .two := by subst hu; rfl
    unfold State.checkpointEdge State.matchedEdge
    rw [hreck, href, hsample, hone, htwo]
    cases k
    · rw [hcand, show (s.advance dt).isCandidate c .two = false from hother]
      rfl
    · rw [hcand, show (s.advance dt).isCandidate c .one = false from hother]
      rfl
  obtain ⟨t, r, he⟩ := u.matchEdge_eq c j k (by rw [hreck]; exact hzone)
  have htied := State.settle_tied (s := u.matchEdge c j k) (by
    rw [he]
    show u.reck.referenced = true
    rw [hreck, href])
  rw [hmatch] at hsends
  refine ⟨_, rfl, ?_⟩
  have hlen : j < (s.reck.zones.get k).length := by
    obtain ⟨-, -, h1, h2⟩ := hshape
    cases k
    · exact h1.symm ▸ hj
    · exact h2.symm ▸ hj
  have hm := congrArg State.reck he
  rw [hreck, hsettings, hedge] at hm
  have hc' := htied.corrections.trans (congrArg Reckoner.c hm)
  have hmiss := htied.misses.trans (congrArg Reckoner.miss hm)
  have hzones := htied.zones.trans (congrArg Reckoner.zones hm)
  rw [hsends.reck, hc', hmiss]
  have hko : k.other ≠ k := by cases k <;> decide
  refine ⟨by simp, by simp [hko], by simp, by simp [hko], ?_⟩
  unfold Reckoner.zone
  rw [hzones]
  exact Reckoner.zone_setZone s.reck k j .withinMatched hlen

/-- Settles O12: with no candidate or two the edge reports its fault and leaves the reckoning. -/
theorem unmatchedEdgeFaults : Obligations.UnmatchedEdgeFaults := by
  intro dt n mv j c s hheld href hsample hshape hmv hlow hc hn honly hsame
  have hsends := State.event_sends hheld dt (State.seeInputs [(n, mv)])
  rw [State.seeInputs_edge (s := s.advance dt) hshape.1 hmv hlow hc hn honly] at hsends
  generalize hu : ({ s.advance dt with inputs := (s.advance dt).seenLevels [(n, mv)] } : State) = u
    at hsends
  have hreck : u.reck = s.reck := by subst hu; rfl
  have hedge (k : Car) : u.edgePosition k = (s.advance dt).edgePosition k := by subst hu; rfl
  have hreport : u.checkpointEdge c j = u.report (u.edgeFault c) := by
    have hone : u.isCandidate c .one = (s.advance dt).isCandidate c .one := by subst hu; rfl
    have htwo : u.isCandidate c .two = (s.advance dt).isCandidate c .two := by subst hu; rfl
    unfold State.checkpointEdge State.matchedEdge
    rw [hreck, href, hsample, hone, htwo, hsame]
    cases (s.advance dt).isCandidate c .two <;> rfl
  rw [hreport] at hsends
  have hsteady := u.takeReports_steady [u.edgeFault c]
  have htied : Tied u (u.report (u.edgeFault c)).settle :=
    (u.takeReports_tied [u.edgeFault c]).trans
      (State.settle_tied (by rw [hsteady.reck, hreck, href]))
  have hfault : ∃ e ∈ (u.report (u.edgeFault c)).settle.faults, e.kind = (u.edgeFault c).kind
      ∧ (u.edgeFault c).cars.join e.cars = e.cars := by
    obtain ⟨e, he, hk, hcars, -⟩ := u.report_has (u.edgeFault c)
    obtain ⟨e', he', hf⟩ := (State.settle_keeps _).settles.old e he
    exact ⟨e', he', hf.kind.trans hk, CarSet.join_trans hcars hf.cars⟩
  refine ⟨_, rfl, ?_⟩
  rw [hsends.reck, hsends.faults]
  refine ⟨by rw [← hreck]; exact htied.corrections, by rw [← hreck]; exact htied.misses,
    by rw [← hreck]; exact htied.zones, fun k hk hnear => ?_, fun k hk hnear => ?_, fun hany => ?_⟩
  · obtain ⟨e, he, hkind, -⟩ := hfault
    refine ⟨e, he, hkind.trans ?_⟩
    simp only [State.edgeFault, hk, hedge, hnear, if_true]
  · obtain ⟨e, he, hkind, hcars⟩ := hfault
    have hr : u.edgeFault c = { kind := .checkpointMismatch, cars := CarSet.only k } := by
      simp [State.edgeFault, hk, hedge, hnear]
    rw [hr] at hkind hcars
    refine ⟨e, he, hkind, ?_⟩
    rw [← hcars]
    cases k <;> simp [CarSet.only, CarSet.join, CarSet.has]
  · obtain ⟨e, he, hkind, hcars⟩ := hfault
    have hr : u.edgeFault c = { kind := .checkpointMismatch, cars := ⟨true, true⟩ } := by
      simp [State.edgeFault, hany, Branch.car]
    rw [hr] at hkind hcars
    refine ⟨e, he, hkind, ?_⟩
    rw [← hcars]
    exact ⟨rfl, rfl⟩

end Sys2Proof.Machine
end

section
/-!
What the settling of an event keeps of a sample: the permitted speed, standstill and its timer, and the
reference of a creep lapse that goes on.
-/

namespace Sys2Proof.Machine

open Sys2Proof

set_option Elab.async false

/-! ## Standstill, the permitted speed and the ramp of a creep lapse -/

/-- Settling after the lapse of a creep hold (R101). -/
def State.Lapsing (s : State) : Prop := s.run.state = .settling ∧ s.run.flavour = some .creepLapse

/-- The permitted speed, standstill and its timer, and what SHUTTLE_START set, as they were; a creep hold at
most ended; and a creep lapse only where one went on with its run context and reference. -/
structure Paced (s t : State) : Prop where
  shuttle : t.shuttle.policy = s.shuttle.policy ∧ t.shuttle.dwell = s.shuttle.dwell
  creepDue : s.run.creepDue = none → t.run.creepDue = none
  vP : t.prof.vP = s.prof.vP
  standstill : t.run.standstill = s.run.standstill
  standstillDue : t.run.standstillDue = s.run.standstillDue
  standstillHeld : t.run.standstillHeld = s.run.standstillHeld
  lapsing : t.Lapsing → s.Lapsing ∧ t.prof.ctx = s.prof.ctx ∧ t.prof.vRef = s.prof.vRef

theorem Paced.trans {s t u : State} (a : Paced s t) (b : Paced t u) : Paced s u where
  shuttle := ⟨b.shuttle.1.trans a.shuttle.1, b.shuttle.2.trans a.shuttle.2⟩
  creepDue h := b.creepDue (a.creepDue h)
  vP := b.vP.trans a.vP
  standstill := b.standstill.trans a.standstill
  standstillDue := b.standstillDue.trans a.standstillDue
  standstillHeld := b.standstillHeld.trans a.standstillHeld
  lapsing h := by
    obtain ⟨ht, hctx, href⟩ := b.lapsing h
    obtain ⟨hs, hctx', href'⟩ := a.lapsing ht
    exact ⟨hs, hctx.trans hctx', href.trans href'⟩

theorem Paced.same {s t : State} (hst : t.run.state = s.run.state := by rfl)
    (hf : t.run.flavour = s.run.flavour := by rfl) (hp : t.prof.vP = s.prof.vP := by rfl)
    (hc : t.prof.ctx = s.prof.ctx := by rfl) (hr : t.prof.vRef = s.prof.vRef := by rfl)
    (hs : t.run.standstill = s.run.standstill := by rfl)
    (hd : t.run.standstillDue = s.run.standstillDue := by rfl)
    (hh : t.run.standstillHeld = s.run.standstillHeld := by rfl)
    (hx : t.shuttle.policy = s.shuttle.policy ∧ t.shuttle.dwell = s.shuttle.dwell := by exact ⟨rfl, rfl⟩)
    (hdue : s.run.creepDue = none → t.run.creepDue = none := by first | exact id | exact fun _ => rfl) :
    Paced s t :=
  ⟨hx, hdue, hp, hs, hd, hh, fun h => ⟨⟨hst ▸ h.1, hf ▸ h.2⟩, hc, hr⟩⟩

/-- A reaction that does not leave a creep lapse standing. -/
theorem Paced.apart {s t : State} (hl : ¬ t.Lapsing) (hp : t.prof.vP = s.prof.vP := by rfl)
    (hs : t.run.standstill = s.run.standstill := by rfl)
    (hd : t.run.standstillDue = s.run.standstillDue := by rfl)
    (hh : t.run.standstillHeld = s.run.standstillHeld := by rfl)
    (hx : t.shuttle.policy = s.shuttle.policy ∧ t.shuttle.dwell = s.shuttle.dwell := by exact ⟨rfl, rfl⟩)
    (hdue : s.run.creepDue = none → t.run.creepDue = none := by first | exact id | exact fun _ => rfl) :
    Paced s t :=
  ⟨hx, hdue, hp, hs, hd, hh, fun h => absurd h hl⟩

theorem Paced.refl (s : State) : Paced s s := .same

theorem State.enterState_paced (s : State) {st : RunState} {f : Option Flavour} (c : Option StopClass)
    (h : st ≠ .settling ∨ f ≠ some .creepLapse) : Paced s (s.enterState st f c) :=
  .apart fun hl => h.elim (absurd hl.1) (absurd hl.2)

theorem State.startCheck_paced (s : State) (b : BrakeSet) : Paced s (s.startCheck b) := by
  unfold State.startCheck
  simp only
  split <;> exact .same

theorem State.apply_paced (s : State) (b : BrakeSet) : Paced s (s.apply b) :=
  (show Paced s (s.modBrk _) from .same).trans (State.startCheck_paced _ _)

theorem State.disableDrive_paced (s : State) : Paced s s.disableDrive :=
  (s.apply_paced .both).trans .same

theorem State.classApply_paced (s : State) : Paced s s.classApply := (s.apply_paced .both).trans .same

theorem State.startClass_paced (s : State) (c : StopClass) : Paced s (s.startClass c) := by
  unfold State.startClass
  split <;> exact .same

theorem State.reactToFault_paced (s : State) (c : StopClass) : Paced s (s.reactToFault c) := by
  have hstop : Paced s (s.enterFaultStopping c) :=
    ((show Paced s s.clearCalls.dropRun from .same).trans
      (State.enterState_paced _ _ (.inl (by decide)))).trans (State.startClass_paced _ _)
  have hheld : Paced s s.enterFaultHeld :=
    (show Paced s s.clearCalls.dropRun from .same).trans (State.enterState_paced _ _ (.inl (by decide)))
  have hraise : Paced s (s.raiseClass c) :=
    (s.enterState_paced _ (.inl (by decide))).trans (State.startClass_paced _ _)
  unfold State.reactToFault
  repeat' split
  all_goals first | exact hheld | exact hstop | exact hraise | exact .refl s

theorem State.takeReports_paced (s : State) (rs : List Report) : Paced s (s.takeReports rs) := by
  have hlatch : Paced s (rs.foldl State.latch s) := by
    obtain ⟨f, hf⟩ := State.latches_eq rs s
    rw [hf]
    exact .same
  have hdemand (u : State) : Paced u u.emergencyDemand := (u.apply_paced .both).trans .same
  unfold State.takeReports
  simp only
  split <;> split
  · exact (hlatch.trans (hdemand _)).trans (State.reactToFault_paced _ _)
  · exact hlatch.trans (State.reactToFault_paced _ _)
  · exact hlatch.trans (hdemand _)
  · exact hlatch

theorem State.refresh_paced (s : State) : Paced s s.refresh :=
  (show Paced s s.takeFalls from .same).trans (State.takeReports_paced _ _)

theorem State.takeOutputs_paced (s : State) (old : List Slot) : Paced s (s.takeOutputs old) := by
  have hfeed (u : State) : Paced u (u.brakeFeedback old) := by
    unfold State.brakeFeedback
    simp only
    split <;> split
    · exact (show Paced u (u.modBrk _) from .same).trans
        ((State.apply_paced _ _).trans (State.apply_paced _ _))
    · exact (show Paced u (u.modBrk _) from .same).trans (State.apply_paced _ _)
    · exact (show Paced u (u.modBrk _) from .same).trans (State.apply_paced _ _)
    · exact .same
  exact ((show Paced s (s.modProf fun p => { p with wind := s.out 9 }) from .same).trans
    (hfeed _)).trans (State.takeReports_paced _ _)

/-- A referencing gives no target to a run that settles (R102). -/
theorem State.takeCreepTarget_paced (s : State) (x : Int) : Paced s (s.takeCreepTarget x) := by
  unfold State.takeCreepTarget
  split
  · split
    next r h =>
      split
      · refine .apart fun hl => ?_
        have hst : s.run.state = .settling := hl.1
        rw [hst] at h
        exact absurd h.2.2 (by decide)
      · exact .refl s
    · exact .refl s
  · exact .refl s

theorem State.reference_paced (s : State) (x : Int) (zones : PerCar (List Zone)) :
    Paced s (s.reference x zones) := by
  unfold State.reference
  simp only
  generalize hu : State.evalDisagree _ = u
  have h0 : Paced s u := by subst hu; exact .same
  exact (h0.trans (u.takeCreepTarget_paced x)).trans .same

theorem State.detect_paced (s : State) : Paced s s.detect := by
  have hreturn : Paced s s.returnToMain := by
    unfold State.returnToMain
    split <;> exact .same
  have hbank (u : State) : Paced u u.bankStep :=
    (show Paced u u.takeSources from .same).trans (State.takeOutputs_paced _ _)
  have hfail (u : State) : Paced u u.failover := by
    unfold State.failover
    split
    · exact (show Paced u (((u.modChan .alt fun c => c.rebase (u.chanPos .main)).setSource
        .alt).evalDisagree) from .same).trans (State.takeReports_paced _ _)
    · exact .refl u
  have hterm (u : State) : Paced u u.terminalReference := by
    unfold State.terminalReference
    split
    · exact u.reference_paced _ _
    · exact .refl u
  exact (((hreturn.trans (hbank _)).trans (hfail _)).trans (hterm _)).trans (State.refresh_paced _)

theorem State.enterPreparing_paced (s : State) {m : Mode} (hm : m ≠ .creep) (d : Dir) (x : Option Stop)
    (ids : List Ident) : Paced s (s.enterPreparing m d x ids) := by
  unfold State.enterPreparing
  simp only [if_neg hm]
  split <;> exact .apart fun hl => RunState.noConfusion hl.1

/-- Arbitration chooses no creep run (R62 to R64). -/
theorem State.choose_mode {s : State} {x : Stop} {m : Mode} {d : Dir} (h : s.choose = .run x m d) :
    m ≠ .creep := by
  have hkind (k : CallKind) : k.mode ≠ .creep := by cases k <;> decide
  unfold State.choose State.chooseFor State.chooseShuttle at h
  simp only at h
  repeat' split at h
  all_goals cases h
  all_goals first
    | exact hkind _
    | decide

theorem State.exitPreparing_paced (s : State) (r : RunRecord) : Paced s (s.exitPreparing r) := by
  unfold State.exitPreparing
  simp only
  split <;> exact .apart fun hl => RunState.noConfusion hl.1

theorem State.enterParked_paced (s : State) : Paced s s.enterParked :=
  (s.enterState_paced (st := .parked) (f := none) none (.inl (by decide))).trans .same

theorem State.enterSettling_paced (s : State) {f : Flavour} (h : f ≠ .creepLapse) :
    Paced s (s.enterSettling f) :=
  (s.enterState_paced none (.inr fun e => h (Option.some.inj e))).trans .same

theorem State.enterDwell_paced (s : State) (x : Stop) (ids : List Ident) :
    Paced s (s.enterDwell x ids) := by
  have hserve (err : PerCar Int) : Paced s (s.serveDwell x ids err) := by
    cases x <;> exact .same
  have hdwell (u : State) (d : Option Nat) (err : PerCar Int) : Paced u ((u.modRun fun r =>
      { r with dwellStop := some x, dwellErr := err, dwellDue := d, record := none }).enterState .dwell) :=
    .apart fun hl => RunState.noConfusion hl.1
  unfold State.enterDwell
  simp only
  split
  · exact ((hserve _).trans (hdwell _ _ _)).trans (State.takeReports_paced _ _)
  · exact (hserve _).trans (hdwell _ _ _)

theorem State.arbitrate_paced (s : State) : Paced s s.arbitrate := by
  have h0 : Paced s (s.modRun fun r => { r with arbitrate := false }) := .same
  unfold State.arbitrate
  simp only
  split
  · refine h0.trans ?_
    unfold State.takeChoice
    split
    · exact .refl _
    · exact State.enterDwell_paced _ _ _
    next hc => exact State.enterPreparing_paced _ (State.choose_mode hc) _ _ _
  · exact h0

theorem State.endSettling_paced (s : State) : Paced s s.endSettling := by
  have hd := s.disableDrive_paced
  unfold State.endSettling
  simp only
  repeat' split
  all_goals first
    | exact hd.trans (State.enterState_paced _ _ (.inl (by decide)))
    | exact hd.trans (State.enterDwell_paced _ _ _)
    | exact hd.trans (State.enterParked_paced _)

theorem State.runSettling_paced (s : State) : Paced s s.runSettling := by
  have ha : Paced s (if s.run.standstill ∧ s.prof.vRef = 0 then s.apply .both else s) := by
    split
    · exact s.apply_paced _
    · exact .refl s
  unfold State.runSettling
  simp only
  generalize (if s.run.standstill ∧ s.prof.vRef = 0 then s.apply .both else s) = u at ha
  split
  · exact ha.trans u.endSettling_paced
  · exact ha

theorem State.runFaultStopping_paced (s : State) : Paced s s.runFaultStopping := by
  have h1 : Paced s (if s.classApplies then s.classApply else s) := by
    split
    · exact s.classApply_paced
    · exact .refl s
  have h2 (u : State) : Paced u (if u.brakesDone ∧ u.brk.enable = true then u.disableDrive else u) := by
    split
    · exact u.disableDrive_paced
    · exact .refl u
  unfold State.runFaultStopping
  simp only
  generalize (if s.classApplies then s.classApply else s) = u at h1
  have h12 := h1.trans (h2 u)
  generalize (if u.brakesDone ∧ u.brk.enable = true then u.disableDrive else u) = v at h12
  split
  · exact h12.trans (v.enterState_paced (st := .faultHeld) (f := none) none (.inl (by decide)))
  · exact h12

theorem State.runStep_paced (s : State) : Paced s s.runStep := by
  unfold State.runStep
  repeat' split
  all_goals first
    | exact s.arbitrate_paced
    | exact s.exitPreparing_paced _
    | exact (s.enterState_paced (st := .running) (f := none) none (.inl (by decide))).trans .same
    | exact s.runSettling_paced
    | exact s.enterParked_paced
    | exact s.runFaultStopping_paced
    | exact (show Paced s (s.modBrk _) from .same).trans (State.enterParked_paced _)
    | exact .refl s

/-- The settling of an event leaves the permitted speed, standstill and the ramp of a creep lapse. -/
theorem State.settle_paced (s : State) : Paced s s.settle := by
  have key (n : Nat) (u : State) : Paced u (State.rounds n u) := by
    induction n generalizing u with
    | zero => exact .refl u
    | succ n ih => exact (u.detect_paced.trans u.detect.runStep_paced).trans (ih _)
  exact key 8 s

theorem State.decideChecks_paced (s : State) (due : Check → Bool) : Paced s (s.decideChecks due) := by
  have h0 : Paced s (s.modBrk fun u => { u with checks := u.checks.filter fun c => !due c }) := .same
  have happly (u : State) (b : Prop) [Decidable b] : Paced u (if b then u.apply ⟨false, true⟩ else u) := by
    split
    · exact u.apply_paced _
    · exact .refl u
  unfold State.decideChecks State.failChecks
  simp only
  generalize (s.modBrk fun u => { u with checks := u.checks.filter fun c => !due c }) = x at h0
  split
  · exact h0
  · split
    · exact ((h0.trans (x.takeReports_paced _)).trans (happly _ _)).trans .same
    · exact (h0.trans (x.takeReports_paced _)).trans (happly _ _)

end Sys2Proof.Machine
end

section
/-!
A sample: what SAMPLE_TIMER_EXPIRY publishes, and standstill with its timer.
-/

namespace Sys2Proof.Machine

open Sys2Proof

set_option Elab.async false

/-! ## The sample that is published -/

/-- The end of a sample's window leaves the position of a channel. -/
theorem ChannelRecord.sample_position (c : ChannelRecord) (scale x : Int) (t : CaptureTime) :
    (c.sample scale t).position x = c.position x := by
  unfold ChannelRecord.sample
  simp only
  repeat' split
  all_goals rfl

theorem mag_clamp_speed (x : Int) : mag (clamp x (-speedBound) speedBound) ≤ speedBound :=
  mag_clamp_le (by decide)

/-- A channel speed is at most 20,000 in magnitude (R21). -/
theorem ChannelRecord.sample_speed (c : ChannelRecord) (scale : Int) (t : CaptureTime) :
    mag (c.sample scale t).speed ≤ speedBound := by
  unfold ChannelRecord.sample
  simp only
  repeat' split
  all_goals first
    | exact mag_clamp_speed _
    | exact (by decide : mag 0 ≤ speedBound)

theorem State.updateConditions_outer (s : State) : Outer s s.updateConditions := by
  unfold State.updateConditions State.restartStall
  simp only
  split <;> constructor <;> rfl

/-- The Reckoner's part of a sample publishes the draft with the source that then stands, and changes the
sample timer, but nothing else of what lies outside the run. -/
theorem State.reckonSample_outer (s : State) : ∃ src,
    Outer
      { s.scheduleSample with
        reck := { s.reck with sample := { s.scheduleSample.formSpeeds.draftSample with source := src } } }
      s.reckonSample := by
  have ho : Outer s.scheduleSample.formSpeeds ((s.scheduleSample.formSpeeds.updateConditions.detect).sampleTests
      s.scheduleSample.formSpeeds.draftSample) :=
    ((State.updateConditions_outer _).trans (State.detect_keeps _).settles.outer).trans
      (State.sampleTests_keeps _ _).settles.outer
  refine ⟨((s.scheduleSample.formSpeeds.updateConditions.detect).sampleTests
      s.scheduleSample.formSpeeds.draftSample).reck.source, ?_⟩
  constructor
  · exact ho.pending
  · exact ho.held
  · exact ho.time
  · exact ho.inputs
  · exact ho.store
  · exact ho.tableInvalid
  · exact ho.links
  · exact ho.recs
  · exact ho.periods
  · rfl

/-- The end of a sample's event, from the state in which its DRIVE_REFERENCE has been sent. -/
def State.endSample (s : State) : State := (s.supervise.decideChecks (·.elapsed)).settle

theorem State.endSample_settles (s : State) : Settles s s.endSample :=
  (s.supervise_settles.trans (State.decideChecks_settles _ _)).trans (State.settle_settles _)

/-- The state of a sample in which its DRIVE_REFERENCE is sent. -/
def State.ramped (s : State) : State := s.formReference.endSuspendRamp

theorem State.ramped_settles (s : State) : Settles s s.ramped :=
  s.formReference_settles.trans (State.endSuspendRamp_settles _)

/-- A sample in its parts: the reckoning, the permitted speed and the Run Controller's part, the reference,
and what follows the DRIVE_REFERENCE. -/
theorem State.takeSample_eq {s : State} (h : s.periods.sample ≤ s.time) :
    s.takeSample = s.reckonSample.permit.controlSample.ramped.sendDrive.endSample := by
  unfold State.takeSample
  rw [if_pos (show s.sampleAwaited = true from decide_eq_true h)]
  rfl

/-- The state of a sample once the Run Controller has taken it. -/
theorem State.controlled_settles (s : State) : Settles s s.permit.controlSample :=
  s.permit_settles.trans (State.controlSample_keeps _).settles

theorem Outer.relink {s t : State} (h : Outer s t) (l : PerParty Link) :
    Outer { s with links := l } { t with links := l } :=
  ⟨h.pending, h.held, h.time, h.inputs, h.store, h.tableInvalid, rfl, h.recs, h.periods, h.sample⟩

theorem State.sendDrive_outer (s : State) : Outer { s with links := s.sendDrive.links } s.sendDrive := by
  constructor <;> rfl

/-- What lies outside the run before a sample, with the sample timer started anew, the sample published and
the DRIVE_REFERENCE on its link. -/
def State.sampled (s : State) (src : Channel) (links : PerParty Link) : State :=
  { s.scheduleSample with
    reck := { s.reck with sample := { s.scheduleSample.formSpeeds.draftSample with source := src } }
    links := links }

/-- After the reckoning a sample changes only the drive's link of what lies outside the run. -/
theorem State.takeSample_reckoned {s : State} (h : s.periods.sample ≤ s.time) : ∃ links,
    Outer { s.reckonSample with links := links } s.takeSample := by
  rw [State.takeSample_eq h]
  have hramped := ((State.controlled_settles s.reckonSample).trans (State.ramped_settles _)).outer
  generalize s.reckonSample.permit.controlSample.ramped = u at hramped
  exact ⟨u.sendDrive.links, ((hramped.relink u.sendDrive.links).trans u.sendDrive_outer).trans
    (State.endSample_settles _).outer⟩

/-- A sample leaves what lies outside the run but for its own effects. -/
theorem State.takeSample_outer {s : State} (h : s.periods.sample ≤ s.time) : ∃ src links,
    Outer (s.sampled src links) s.takeSample := by
  obtain ⟨src, hreckon⟩ := s.reckonSample_outer
  obtain ⟨links, hrest⟩ := State.takeSample_reckoned h
  exact ⟨src, links, (hreckon.relink links).trans hrest⟩

theorem State.scheduled_chanPos (s : State) (ch : Channel) :
    s.scheduleSample.formSpeeds.chanPos ch = s.chanPos ch := by
  cases ch <;> exact ChannelRecord.sample_position _ _ _ _

/-- The sample that a state's timer expiry forms. -/
theorem State.scheduled_draft (s : State) :
    s.scheduleSample.formSpeeds.draftSample =
      { s := s.rope
        v := ((s.chan.get s.reck.source).sample (s.scale s.reck.source) s.captureTimer).speed
        p := ⟨s.reckoned .one s.rope s.reck.c.one, s.reckoned .two s.rope s.reck.c.two⟩
        e := ⟨s.stretch .one s.rope, s.stretch .two s.rope⟩
        c := s.reck.c
        source := s.reck.source
        referenced := s.reck.referenced
        time := s.captureTimer } := by
  have hrope : s.scheduleSample.formSpeeds.rope = s.rope := s.scheduled_chanPos _
  have hspeed : (s.scheduleSample.formSpeeds.chan.get s.reck.source).speed
      = ((s.chan.get s.reck.source).sample (s.scale s.reck.source) s.captureTimer).speed := by
    cases s.reck.source <;> rfl
  unfold State.draftSample
  simp only [hrope]
  rw [show s.scheduleSample.formSpeeds.reck = s.reck from rfl, hspeed]
  rfl

/-- Settles O13: the sample is the draft of the state in which the timer expires. -/
theorem samplePublishesPosition : Obligations.SamplePublishesPosition := by
  intro dt s hheld hdue
  have hsends := State.event_sends hheld dt State.takeSample
  obtain ⟨src, links, houter⟩ := State.takeSample_outer (s := s.advance dt) hdue
  have hsample : (s.event dt State.takeSample).reck.sample
      = { (s.advance dt).scheduleSample.formSpeeds.draftSample with source := src } := by
    rw [hsends.reck, houter.sample]
    rfl
  rw [State.scheduled_draft] at hsample
  refine ⟨_, rfl, ?_⟩
  rw [hsample]
  refine ⟨rfl, rfl, ChannelRecord.sample_speed _ _ _, rfl, rfl, rfl, rfl, ?_, ?_, ?_, ?_, ?_⟩
  · rw [hsends.sample, houter.periods]
    rfl
  · exact hsends.store.trans houter.store
  · exact hsends.recs.trans houter.recs
  · exact hsends.inputs.trans houter.inputs
  · rw [hsends.status, houter.periods]
    rfl

/-! ## Standstill -/

/-- Standstill and its timer as they were. -/
structure Stood (s t : State) : Prop where
  standstill : t.run.standstill = s.run.standstill
  due : t.run.standstillDue = s.run.standstillDue
  held : t.run.standstillHeld = s.run.standstillHeld

theorem Stood.trans {s t u : State} (a : Stood s t) (b : Stood t u) : Stood s u :=
  ⟨b.standstill.trans a.standstill, b.due.trans a.due, b.held.trans a.held⟩

theorem Paced.stood {s t : State} (h : Paced s t) : Stood s t :=
  ⟨h.standstill, h.standstillDue, h.standstillHeld⟩

theorem Sends.stood {s t : State} (h : Sends s t) : Stood s t :=
  ⟨(congrArg RunControl.standstill h.run :), (congrArg RunControl.standstillDue h.run :),
    (congrArg RunControl.standstillHeld h.run :)⟩

theorem State.testDistance_paced (s : State) : Paced s s.testDistance := by
  unfold State.testDistance
  repeat' split
  all_goals first
    | exact s.enterSettling_paced (by decide)
    | exact s.enterState_paced (st := .finalApproach) (f := none) none (.inl (by decide))
    | exact .refl s

theorem State.endSuspendRamp_paced (s : State) : Paced s s.endSuspendRamp := by
  unfold State.endSuspendRamp
  split
  · exact s.enterSettling_paced (by decide)
  · exact .refl s

theorem State.missPass_paced (s : State) (k : Car) : Paced s (s.missPass k) :=
  (show Paced s (s.modReck _) from .same).trans (State.takeReports_paced _ _)

theorem State.sampleTests_paced (s : State) (new : Sample) : Paced s (s.sampleTests new) := by
  have hpass (k : Car) (u : State) (cj : Checkpoint × Nat) : Paced u (State.passTest new k u cj) := by
    unfold State.passTest
    split
    · exact u.missPass_paced k
    · exact .refl u
  have hfold (k : Car) (l : List (Checkpoint × Nat)) :
      ∀ u : State, Paced u (l.foldl (State.passTest new k) u) := by
    induction l with
    | nil => exact fun u => .refl u
    | cons cj l ih => exact fun u => (hpass k u cj).trans (ih _)
  have hpasses : Paced s (s.passTests new) := by
    unfold State.passTests
    split
    · exact (hfold _ _ _).trans (hfold _ _ _)
    · exact .refl s
  unfold State.sampleTests
  split
  · exact hpasses.trans .same
  · exact .refl s

theorem State.reckonSample_paced (s : State) : Paced s s.reckonSample := by
  have hconds (u : State) : Paced u u.updateConditions := by
    unfold State.updateConditions State.restartStall
    simp only
    split <;> exact .same
  have hspeeds : Paced s s.scheduleSample.formSpeeds := .same
  exact (((hspeeds.trans (hconds _)).trans (State.detect_paced _)).trans
    (State.sampleTests_paced _ _)).trans .same

theorem State.permit_eq (s : State) : ∃ l t p,
    s.permit = { s with prof := { s.prof with vLocal := l, vTgt := t, vP := p } } := by
  unfold State.permit
  simp only
  split <;> exact ⟨_, _, _, rfl⟩

theorem State.supervise_paced (s : State) : Paced s s.supervise := by
  unfold State.supervise
  split <;> exact .same

theorem State.endSample_paced (s : State) : Paced s s.endSample :=
  (s.supervise_paced.trans (State.decideChecks_paced _ _)).trans (State.settle_paced _)

/-- The part of a sample after its standstill test keeps standstill. -/
theorem State.takeSample_stood {s : State} (h : s.periods.sample ≤ s.time) :
    Stood s.reckonSample.permit.sampleStandstill s.takeSample := by
  rw [State.takeSample_eq h]
  have hcontrol : Stood s.reckonSample.permit.sampleStandstill s.reckonSample.permit.controlSample :=
    ((State.testDistance_paced _).trans (State.settle_paced _)).stood
  have href (u : State) : Stood u u.formReference := ⟨rfl, rfl, rfl⟩
  have hsend (u : State) : Stood u u.sendDrive := ⟨rfl, rfl, rfl⟩
  exact (((hcontrol.trans (href _)).trans (State.endSuspendRamp_paced _).stood).trans (hsend _)).trans
    (State.endSample_paced _).stood

theorem State.takeStandstill_due {s : State} {d : Nat} (hd : s.run.standstillDue = some d)
    (h : d ≤ s.time) : s.takeStandstill = s.expireStandstill.settle := by
  unfold State.takeStandstill
  rw [hd, isDue, if_pos (decide_eq_true h)]

theorem standstill_timer (dt d : Nat) (s : State) (hr : s.Ready) (hd : s.run.standstillDue = some d)
    (hdue : d ≤ s.time + dt) :
    Stood (s.advance dt).expireStandstill (s.event dt State.takeStandstill)
    ∧ (s.event dt State.takeStandstill).reck.sample = s.reck.sample := by
  have hsends := State.event_sends hr.1 dt State.takeStandstill
  rw [State.takeStandstill_due (s := s.advance dt) hd hdue] at hsends
  refine ⟨(State.settle_paced _).stood.trans hsends.stood, ?_⟩
  rw [hsends.reck, (State.settle_keeps _).settles.outer.sample]
  exact (State.expireStandstill_keeps _).settles.outer.sample

/-- The standstill test of a sample (R81). -/
theorem State.sampleStandstill_cases (s : State) :
    (20 < s.absV → s.sampleStandstill.run.standstill = false ∧ s.sampleStandstill.run.standstillDue = none)
    ∧ (s.absV ≤ 20 → s.run.standstillHeld = true →
      s.sampleStandstill.run.standstill = true ∧ s.sampleStandstill.run.standstillHeld = false)
    ∧ (s.absV ≤ 20 → s.run.standstillHeld = false →
      s.sampleStandstill.run.standstill = s.run.standstill
      ∧ s.sampleStandstill.run.standstillDue = some (s.run.standstillDue.getD (s.time + 500000))) := by
  unfold State.sampleStandstill standstillSpeed
  refine ⟨fun hv => ?_, fun hv hh => ?_, fun hv hh => ?_⟩
  · rw [if_neg (by omega)]
    exact ⟨rfl, rfl⟩
  · rw [if_pos hv, if_pos hh]
    exact ⟨rfl, rfl⟩
  · rw [if_pos hv, hh]
    refine ⟨rfl, ?_⟩
    show (match s.run.standstillDue with
      | some d => some d
      | none => some (s.time + ms 500)) = _
    cases s.run.standstillDue <;> rfl

/-- Settles O21: a timer's expiry and a sample's standstill test, each kept by what follows in its event. -/
theorem standstillFollowsItsTimer : Obligations.StandstillFollowsItsTimer := by
  refine ⟨fun dt d s hr hd hdue => ?_, fun dt s hheld hdue => ⟨_, rfl, ?_⟩⟩
  · obtain ⟨hstood, hsample⟩ := standstill_timer dt d s hr hd hdue
    refine ⟨fun hno => ⟨_, rfl, ?_⟩, fun hat => ⟨_, rfl, ?_⟩⟩
    · have hno : (s.advance dt).sampleAwaited = false := decide_eq_false (by simpa using hno)
      rw [State.expireStandstill, hno] at hstood
      exact ⟨hstood.standstill, hstood.due, hsample⟩
    · have hat : (s.advance dt).sampleAwaited = true := decide_eq_true hat
      rw [State.expireStandstill, hat] at hstood
      exact ⟨hstood.standstill, hstood.held, hstood.due, hsample⟩
  · have hsends := State.event_sends hheld dt State.takeSample
    have hstood := (State.takeSample_stood (s := s.advance dt) hdue).trans hsends.stood
    have hreckon := (s.advance dt).reckonSample_paced
    obtain ⟨src, houter⟩ := (s.advance dt).reckonSample_outer
    have hsample : (s.event dt State.takeSample).reck.sample = (s.advance dt).reckonSample.reck.sample := by
      obtain ⟨links, hrest⟩ := State.takeSample_reckoned (s := s.advance dt) hdue
      rw [hsends.reck, hrest.sample]
    rw [hsample]
    obtain ⟨l, v, p, hp⟩ := (s.advance dt).reckonSample.permit_eq
    have htime : (s.advance dt).reckonSample.time = s.time + dt := houter.time
    generalize (s.advance dt).reckonSample = r at *
    have hcases := r.permit.sampleStandstill_cases
    rw [hstood.standstill, hstood.due, hstood.held]
    rw [show r.permit.absV = mag r.reck.sample.v by rw [hp]; rfl,
      show r.permit.run = r.run by rw [hp], show r.permit.time = s.time + dt by rw [hp]; exact htime,
      hreckon.standstillHeld, hreckon.standstill, hreckon.standstillDue] at hcases
    exact hcases

end Sys2Proof.Machine
end

section
/-!
The reference and supervision of a sample: what is sent, its bound, and the overspeed tests.
-/

namespace Sys2Proof.Machine

open Sys2Proof

set_option Elab.async false

/-! ## The permitted speed is not negative -/

theorem isqrt_nonneg (x : Int) : 0 ≤ isqrt x := Int.natCast_nonneg _

/-- Every segment has a limit of at least 300, one looked up outside the list too. -/
theorem OperatingSet.RangeLaw.limit {o : OperatingSet} (h : o.RangeLaw) (i : Nat) :
    300 ≤ (o.seg i).limit := by
  unfold OperatingSet.seg
  rw [List.getD_eq_getElem?_getD]
  cases hi : o.segments[i]? with
  | none => exact (by decide : (300 : Int) ≤ Segment.factory.limit)
  | some g => exact (h.segs g (List.mem_of_mem_take (List.mem_of_getElem? hi))).2.1

theorem State.RangeLaw.formLocal {s : State} (h : s.RangeLaw) : 0 ≤ s.formLocal := by
  have hseg (i : Nat) : 300 ≤ (s.store.active.seg i).limit := h.active.limit i
  unfold State.formLocal
  simp only
  split
  · have h1 := hseg (s.store.active.lookup s.lr s.reck.sample.p.one)
    have h2 := hseg (s.store.active.lookup s.lr s.reck.sample.p.two)
    unfold OperatingSet.localLimit OperatingSet.segAt
    omega
  · unfold OperatingSet.lowestLimit
    rcases List.mem_cons.1 (least_mem (s.store.active.seg 0).limit
      (s.store.active.segments.map (·.limit))) with e | hm
    · rw [e]
      have h0 := hseg 0
      omega
    · obtain ⟨g, hg, e⟩ := List.mem_map.1 hm
      rw [← e]
      have hlimit := (h.active.segs g (List.mem_of_mem_take hg)).2.1
      simp only at hlimit
      omega

theorem OperatingSet.boundarySpeeds_nonneg (o : OperatingSet) (rising : Bool) (p stop a : Int) :
    ∀ v ∈ o.boundarySpeeds rising p stop a, 0 ≤ v := by
  intro v hv
  obtain ⟨⟨b, below, above⟩, -, hb⟩ := List.mem_filterMap.1 hv
  simp only at hb
  repeat' split at hb
  all_goals first
    | exact Option.some.inj hb ▸ isqrt_nonneg _
    | cases hb

/-- The settings that bound a reference lie in their ranges (R193). -/
theorem State.RangeLaw.speeds {s : State} (h : s.RangeLaw) :
    0 ≤ s.settings.vCreep ∧ 0 ≤ s.settings.aAcc ∧ 0 ≤ s.settings.windCap ∧ 0 ≤ s.settings.failoverPct := by
  have hc := (h.active.settings 6 _ rfl).1
  have ha := (h.active.settings 5 _ rfl).1
  have hw := (h.active.settings 14 _ rfl).1
  have hf := (h.active.settings 13 _ rfl).1
  exact ⟨le_trans (by decide) hc, le_trans (by decide) ha, le_trans (by decide) hw,
    le_trans (by decide) hf⟩

theorem State.RangeLaw.caps {s : State} (h : s.RangeLaw) (hl : 0 ≤ s.prof.vLocal) (c : RunContext) :
    ∀ v ∈ s.caps c, 0 ≤ v := by
  obtain ⟨hcreep, -, hwind, hpct⟩ := h.speeds
  intro v hv
  unfold State.caps at hv
  rcases List.mem_append.1 hv with hv | hv
  · rcases List.mem_append.1 hv with hv | hv
    · split at hv
      · rw [List.mem_singleton.1 hv]; exact hwind
      · cases hv
    · split at hv
      · rw [List.mem_singleton.1 hv]
        exact Int.ediv_nonneg (Int.mul_nonneg hl hpct) (by decide)
      · cases hv
  · split at hv
    · rw [List.mem_singleton.1 hv]; exact hcreep
    · cases hv

theorem State.RangeLaw.formPermitted {s : State} (h : s.RangeLaw) (hl : 0 ≤ s.prof.vLocal)
    (c : RunContext) : 0 ≤ s.formPermitted c (s.formTgt c) := by
  unfold State.formPermitted
  have hterms (t : Int) : ∀ v ∈ s.boundaryTerms c t, 0 ≤ v := by
    intro v hv
    unfold State.boundaryTerms at hv
    rcases List.mem_append.1 hv with hv | hv
    · exact OperatingSet.boundarySpeeds_nonneg _ _ _ _ _ v hv
    · exact OperatingSet.boundarySpeeds_nonneg _ _ _ _ _ v hv
  rcases List.mem_cons.1 (least_mem 12000 _) with e | hm
  · rw [e]; decide
  · rcases List.mem_append.1 hm with hm | hm
    · rcases List.mem_append.1 hm with hm | hm
      · rcases List.mem_cons.1 hm with e | hm
        · rw [e]; exact hl
        · obtain ⟨d, -, hd⟩ := Option.map_eq_some_iff.1 (Option.mem_toList.1 hm)
          rw [← hd]
          exact isqrt_nonneg _
      · split at hm
        · exact hterms _ _ hm
        · cases hm
    · exact h.caps hl c _ hm

/-- The permitted speed of a sample is not negative (R114). -/
theorem State.RangeLaw.permit_vP {s : State} (h : s.RangeLaw) : 0 ≤ s.permit.prof.vP := by
  unfold State.permit
  simp only
  split
  · have hu : (s.modProf fun p => { p with vLocal := s.formLocal }).RangeLaw := ⟨h.sets, h.consts, h.decel⟩
    exact hu.formPermitted h.formLocal _
  · exact le_refl (0 : Int)

/-! ## The reference and its bound -/

theorem State.mag_runSign_mul (s : State) (x : Int) : mag (s.runSign * x) = mag x := by
  have h : s.runSign = 1 ∨ s.runSign = -1 := by
    unfold State.runSign
    cases s.prof.ctx with
    | none => exact .inl rfl
    | some c =>
      cases h : c.dir
      · exact .inl (by simp [h, Dir.sign])
      · exact .inr (by simp [h, Dir.sign])
  unfold mag
  rcases h with h | h <;> rw [h] <;> simp

/-- The reference of a sample is bounded by the permitted speed and v_creep, but for the ramp of a creep
lapse (R115, R118). -/
theorem State.RangeLaw.refMagnitude {s : State} (h : s.RangeLaw) (hp : 0 ≤ s.prof.vP) :
    (¬ s.Lapsing → mag s.refMagnitude ≤ max s.prof.vP s.settings.vCreep)
    ∧ (s.Lapsing → mag s.refMagnitude ≤ max 0 (mag s.prof.vRef - s.aRun * 10 / 1000)) := by
  obtain ⟨hcreep, hacc, -, -⟩ := h.speeds
  have hprev := mag_nonneg s.prof.vRef
  have hrise : 0 ≤ s.settings.aAcc * 10 / 1000 := by omega
  unfold State.refMagnitude rampStep floorDiv State.Lapsing
  generalize mag s.prof.vRef = prev at *
  generalize s.settings.aAcc * 10 / 1000 = rise at *
  generalize s.aRun * 10 / 1000 = fall
  generalize s.settings.vCreep = creep at *
  generalize s.prof.vP = vP at *
  unfold mag
  cases s.run.state <;> simp only [reduceCtorEq, false_and, not_false_eq_true, true_implies,
    false_implies, and_true, true_and]
  case running | finalApproach | suspending => omega
  case settling =>
    split
    next h => simp only [h, not_true_eq_false, false_implies, true_implies, true_and]; omega
    next h => simp only [h, not_false_eq_true, false_implies, true_implies, and_true]; omega
  case faultStopping => split <;> omega
  all_goals omega

/-! ## The DRIVE_REFERENCE and what follows it -/

/-- Where the reference has been formed, ramped to 0 or not, drive enable and reference stand. -/
theorem State.ramped_sent (s : State) :
    s.ramped.brk = s.brk ∧ s.ramped.prof.vRef = s.runSign * s.refMagnitude := by
  unfold State.ramped State.endSuspendRamp
  split
  next h =>
    refine ⟨rfl, ?_⟩
    have hz : s.runSign * s.refMagnitude = 0 := h.2
    rw [hz]
    rfl
  next => exact ⟨rfl, rfl⟩

theorem State.supervise_eq (s : State) : ∃ v c l,
    s.supervise = { s with prof := { s.prof with vSup := v, curve := c, limit := l } } := by
  unfold State.supervise
  split <;> exact ⟨_, _, _, rfl⟩

theorem State.endSample_sent (s : State) :
    s.endSample.brk.refEnable = s.brk.refEnable ∧ s.endSample.brk.refSpeed = s.brk.refSpeed
    ∧ (s.endSample.prof.vRef = s.prof.vRef ∨ s.endSample.prof.vRef = 0) := by
  have hsent : Sent s.supervise s.endSample :=
    (State.decideChecks_steady _ _).toSent.trans (State.settle_sent _)
  obtain ⟨v, c, l, hsup⟩ := s.supervise_eq
  rw [hsup] at hsent
  exact ⟨hsent.sent.1, hsent.sent.2, hsent.vRef⟩

theorem State.sendDrive_sent (s : State) :
    s.sendDrive.brk.refEnable = s.brk.enable
    ∧ s.sendDrive.brk.refSpeed = (if s.brk.enable then s.prof.vRef else 0)
    ∧ s.sendDrive.prof = s.prof ∧ s.sendDrive.run = s.run
    ∧ s.sendDrive.link .drive = (s.link .drive).hand .driveReference
        [⟨0x63, drivePayload s.brk.enable (if s.brk.enable then s.prof.vRef else 0)⟩] :=
  ⟨rfl, rfl, rfl, rfl, rfl⟩

/-- What is sent once the Run Controller has taken a sample, and the reference that stands afterwards. -/
theorem State.ramped_sends (c : State) :
    c.ramped.sendDrive.endSample.brk.refEnable = c.brk.enable
    ∧ c.ramped.sendDrive.endSample.brk.refSpeed = (if c.brk.enable then c.runSign * c.refMagnitude else 0)
    ∧ (c.ramped.sendDrive.endSample.prof.vRef = c.runSign * c.refMagnitude
      ∨ c.ramped.sendDrive.endSample.prof.vRef = 0)
    ∧ c.ramped.sendDrive.endSample.link .drive = (c.link .drive).hand .driveReference
        [⟨0x63, drivePayload c.brk.enable (if c.brk.enable then c.runSign * c.refMagnitude else 0)⟩] := by
  have hlink : c.ramped.link .drive = c.link .drive := by
    unfold State.link
    rw [c.ramped_settles.outer.links]
  obtain ⟨hbrk, hvRef⟩ := c.ramped_sent
  generalize c.ramped = u at *
  obtain ⟨he, hv, hprof, -, hl⟩ := u.sendDrive_sent
  rw [hbrk, hvRef] at hv hl
  rw [hlink] at hl
  rw [hbrk] at he
  generalize u.sendDrive = q at *
  obtain ⟨he', hv', href⟩ := q.endSample_sent
  have hl' : q.endSample.link .drive = q.link .drive := by
    unfold State.link
    rw [q.endSample_settles.outer.links]
  rw [hprof, hvRef] at href
  exact ⟨he'.trans he, hv'.trans hv, href, hl'.trans hl⟩

/-- What a sample sends, and the reference that stands after its event. -/
theorem State.takeSample_sends {s c : State} (h : s.periods.sample ≤ s.time)
    (hc : s.reckonSample.permit.controlSample = c) :
    s.takeSample.brk.refEnable = c.brk.enable
    ∧ s.takeSample.brk.refSpeed = (if c.brk.enable then c.runSign * c.refMagnitude else 0)
    ∧ (s.takeSample.prof.vRef = c.runSign * c.refMagnitude ∨ s.takeSample.prof.vRef = 0)
    ∧ s.takeSample.link .drive = (s.link .drive).hand .driveReference
        [⟨0x63, drivePayload c.brk.enable (if c.brk.enable then c.runSign * c.refMagnitude else 0)⟩] := by
  obtain ⟨src, hreckon⟩ := s.reckonSample_outer
  have hlink : c.link .drive = s.link .drive := by
    unfold State.link
    rw [← hc, (State.controlled_settles _).outer.links, hreckon.links]
    rfl
  have hsends := c.ramped_sends
  rw [hlink] at hsends
  rw [State.takeSample_eq h, hc]
  exact hsends

/-! ## The bound of the reference -/

theorem State.controlSample_paced (s : State) : Paced s.sampleStandstill s.controlSample := by
  unfold State.controlSample
  exact (State.testDistance_paced _).trans (State.settle_paced _)

theorem State.sampleStandstill_kept (s : State) : s.sampleStandstill.run.state = s.run.state
    ∧ s.sampleStandstill.run.flavour = s.run.flavour ∧ s.sampleStandstill.prof = s.prof := by
  unfold State.sampleStandstill
  repeat' split
  all_goals exact ⟨rfl, rfl, rfl⟩

theorem State.controlSample_vP (s : State) : s.controlSample.prof.vP = s.prof.vP := by
  rw [s.controlSample_paced.vP, s.sampleStandstill_kept.2.2]

/-- A creep lapse that a sample finds after its run control went on before it. -/
theorem State.controlSample_lapsing (s : State) (h : s.controlSample.Lapsing) :
    s.Lapsing ∧ s.controlSample.prof.ctx = s.prof.ctx ∧ s.controlSample.prof.vRef = s.prof.vRef := by
  obtain ⟨hl, hctx, hv⟩ := s.controlSample_paced.lapsing h
  obtain ⟨hst, hf, hprof⟩ := s.sampleStandstill_kept
  rw [hprof] at hctx hv
  exact ⟨⟨hst ▸ hl.1, hf ▸ hl.2⟩, hctx, hv⟩

theorem State.permit_lapsing (s : State) (h : s.permit.Lapsing) :
    s.Lapsing ∧ s.permit.prof.ctx = s.prof.ctx ∧ s.permit.prof.vRef = s.prof.vRef := by
  obtain ⟨l, t, p, hp⟩ := s.permit_eq
  rw [hp] at h ⊢
  exact ⟨h, rfl, rfl⟩

theorem State.takeSample_vP {s : State} (h : s.periods.sample ≤ s.time) :
    s.takeSample.prof.vP = s.reckonSample.permit.prof.vP := by
  have href (u : State) : u.ramped.prof.vP = u.prof.vP := (State.endSuspendRamp_paced _).vP
  have hsend (u : State) : u.sendDrive.prof = u.prof := rfl
  rw [State.takeSample_eq h, (State.endSample_paced _).vP, hsend, href, State.controlSample_vP]

/-- The bound of what a sample sends (R115, R118). -/
theorem State.RangeLaw.takeSample_bound {s : State} (hr : s.RangeLaw) (h : s.periods.sample ≤ s.time) :
    (s.run.flavour ≠ some .creepLapse →
      mag s.takeSample.brk.refSpeed ≤ max s.takeSample.prof.vP s.takeSample.settings.vCreep)
    ∧ mag s.takeSample.brk.refSpeed ≤ max (max s.takeSample.prof.vP s.takeSample.settings.vCreep)
        (max 0 (mag s.prof.vRef - s.aRun * 10 / 1000)) := by
  have hreckon : s.reckonSample.RangeLaw := State.rangeLaw.reacts s.reckonSample_reacts hr
  have hc : s.reckonSample.permit.controlSample.RangeLaw :=
    State.rangeLaw.reacts (State.controlSample_keeps _).reacts
      (State.rangeLaw.reacts (State.permit_reacts _) hreckon)
  have hvP : s.takeSample.prof.vP = s.reckonSample.permit.controlSample.prof.vP := by
    rw [State.takeSample_vP h, State.controlSample_vP]
  have hset : s.takeSample.settings = s.reckonSample.permit.controlSample.settings := by
    obtain ⟨links, hrest⟩ := State.takeSample_reckoned h
    have hcontrol := (State.controlled_settles s.reckonSample).outer.store
    unfold State.settings
    rw [hrest.store, hcontrol]
  have hpos : 0 ≤ s.reckonSample.permit.controlSample.prof.vP := by
    rw [State.controlSample_vP]
    exact hreckon.permit_vP
  have hlapse (hl : s.reckonSample.permit.controlSample.Lapsing) : s.run.flavour = some .creepLapse
      ∧ s.reckonSample.permit.controlSample.prof.vRef = s.prof.vRef
      ∧ s.reckonSample.permit.controlSample.aRun = s.aRun := by
    obtain ⟨hl, hctx, hv⟩ := State.controlSample_lapsing _ hl
    obtain ⟨hl, hctx', hv'⟩ := State.permit_lapsing _ hl
    obtain ⟨hl, hctx'', hv''⟩ := s.reckonSample_paced.lapsing hl
    refine ⟨hl.2, by rw [hv, hv', hv''], ?_⟩
    unfold State.aRun
    rw [hctx, hctx', hctx'']
  have hspeed := (State.takeSample_sends h rfl).2.1
  obtain ⟨hfree, hramp⟩ := hc.refMagnitude hpos
  have hcreep : 0 ≤ s.reckonSample.permit.controlSample.settings.vCreep := hc.speeds.1
  generalize s.reckonSample.permit.controlSample = c at *
  rw [hspeed, hvP, hset]
  have hzero : mag 0 = 0 := rfl
  refine ⟨fun hf => ?_, ?_⟩
  · split
    · rw [State.mag_runSign_mul]
      exact hfree fun hl => hf (hlapse hl).1
    · rw [hzero]
      omega
  · split
    · rw [State.mag_runSign_mul]
      by_cases hl : c.Lapsing
      · obtain ⟨-, hv, ha⟩ := hlapse hl
        have hb := hramp hl
        rw [hv, ha] at hb
        exact hb.trans (le_max_right _ _)
      · exact (hfree hl).trans (le_max_left _ _)
    · rw [hzero]
      omega

/-! ## Supervision of a sample -/

theorem State.supervise_on {s : State} (h : s.run.state.speedSupervised = true) :
    s.supervise =
      s.modProf fun p =>
        { p with
          vSup := s.formSup, curve := curveTrips s.absV s.formSup, limit := limitTrips s.absV p.vLocal } :=
  if_pos h

/-- What v_sup is formed from (R121). -/
theorem State.formSup_same {s t : State} (hctx : t.prof.ctx = s.prof.ctx) (ht : t.target = s.target)
    (hs : t.reck.sample = s.reck.sample) (hp : t.prof.vP = s.prof.vP) (hv : t.prof.vSup = s.prof.vSup)
    (ho : t.store = s.store) : t.formSup = s.formSup := by
  unfold State.formSup State.distance State.star State.aRun State.settings
  rw [hctx, ht, hs, hp, hv, ho]

/-- The sending of the reference leaves what supervision is formed from. -/
theorem State.ramped_kept (s : State) :
    s.ramped.run.state.speedSupervised = s.run.state.speedSupervised
    ∧ (s.run.state.speedSupervised = true → s.ramped.formSup = s.formSup)
    ∧ s.ramped.absV = s.absV ∧ s.ramped.prof.vLocal = s.prof.vLocal
    ∧ s.ramped.conds = s.conds ∧ s.ramped.run.counter = s.run.counter := by
  unfold State.ramped State.endSuspendRamp
  split
  next h =>
    have hst : s.run.state = .suspending := h.1
    rw [hst]
    refine ⟨rfl, fun _ => State.formSup_same rfl rfl rfl rfl rfl rfl, rfl, rfl, rfl, rfl⟩
  next => exact ⟨rfl, fun _ => State.formSup_same rfl rfl rfl rfl rfl rfl, rfl, rfl, rfl, rfl⟩

/-- The state of a supervised sample once supervision has taken it. -/
theorem State.ramped_supervised {s : State} (h : s.run.state.speedSupervised = true) : ∃ v : State,
    s.ramped.sendDrive.endSample = (v.decideChecks (·.elapsed)).settle
    ∧ v.run.state.speedSupervised = true ∧ v.run.counter = s.run.counter ∧ v.conds = s.conds
    ∧ v.prof.vSup = s.formSup ∧ v.prof.curve = curveTrips s.absV s.formSup
    ∧ v.prof.limit = limitTrips s.absV s.prof.vLocal := by
  obtain ⟨hst, hsup, habs, hlocal, hconds, hcounter⟩ := s.ramped_kept
  rw [h] at hst
  refine ⟨s.ramped.sendDrive.supervise, rfl, ?_⟩
  rw [← hsup h, ← habs, ← hlocal, ← hconds, ← hcounter]
  generalize s.ramped = u at *
  have hsame : u.sendDrive.formSup = u.formSup := State.formSup_same rfl rfl rfl rfl rfl rfl
  rw [State.supervise_on (s := u.sendDrive) hst, hsame]
  exact ⟨hst, rfl, rfl, rfl, rfl, rfl⟩

/-- Supervision of a sample in a supervised state, and what stands of it after its event (R121 to R123). -/
theorem State.endSample_supervised {s : State} (h : s.run.state.speedSupervised = true) :
    let t := s.ramped.sendDrive.endSample
    (t.prof.vSup = s.formSup ∨ t.prof.vSup = 0)
    ∧ (t.run.state.speedSupervised = true → t.run.counter = s.run.counter → t.prof.vSup = s.formSup)
    ∧ (curveTrips s.absV s.formSup = true → Cond.overspeedCurve ∉ s.conds →
        ∃ e ∈ t.faults, e.kind = .overspeedCurve)
    ∧ (limitTrips s.absV s.prof.vLocal = true → Cond.overspeedLimit ∉ s.conds →
        ∃ e ∈ t.faults, e.kind = .overspeedLimit)
    ∧ (curveTrips s.absV s.formSup = false → t.prof.curve = false)
    ∧ (limitTrips s.absV s.prof.vLocal = false → t.prof.limit = false) := by
  obtain ⟨v, hend, hst, hcounter, hconds, hsup, hcurve, hlimit⟩ := State.ramped_supervised h
  rw [hend, ← hcurve, ← hlimit, ← hsup, ← hconds, ← hcounter]
  have hwatched := (v.decideChecks_watched (·.elapsed)).trans (State.settle_sent _).watched
  have hchecks := v.decideChecks_noRun (·.elapsed)
  obtain ⟨hon, hcu, hli⟩ := v.decideChecks_supervised (·.elapsed) hst
  obtain ⟨hcurves, hlimits⟩ := State.settle_overspeed hon
  rw [State.decideChecks_conds] at hcurves hlimits
  refine ⟨hwatched.vSup, fun ht hc => ?_, fun htrip => hcurves (hcu.trans htrip),
    fun htrip => hlimits (hli.trans htrip), fun hno => ?_, fun hno => ?_⟩
  · have hnorun := hchecks.trans (State.settle_noRun (hc.trans hchecks.counter.symm))
    exact ((hnorun.on fun e => by rw [e] at hst; cases hst).2 ht).2
  · exact hwatched.curve.elim (fun e => e.trans hno) id
  · exact hwatched.limit.elim (fun e => e.trans hno) id

/-- An overspeed condition that was false before a sample is not taken by the Fault Handler when the Run
Controller has taken the sample. -/
theorem State.controlSample_untaken (s : State) :
    (s.prof.curve = false → Cond.overspeedCurve ∉ s.reckonSample.permit.controlSample.conds)
    ∧ (s.prof.limit = false → Cond.overspeedLimit ∉ s.reckonSample.permit.controlSample.conds) := by
  have hbefore : Watched s s.reckonSample.permit.sampleStandstill.testDistance :=
    ((s.reckonSample_watched.trans (State.permit_watched _)).trans
      (State.sampleStandstill_steady _).watched).trans (State.testDistance_steady _).watched
  obtain ⟨hcurve, hlimit⟩ := State.settle_untaken (s := s.reckonSample.permit.sampleStandstill.testDistance)
  exact ⟨fun h => (hcurve (hbefore.curve.elim (fun e => e.trans h) id)).2,
    fun h => (hlimit (hbefore.limit.elim (fun e => e.trans h) id)).2⟩

/-- A sample keeps the law of supervision (R121 to R123). -/
theorem State.takeSample_supervision {s : State} (h : s.periods.sample ≤ s.time) (hl : s.SupervisionLaw) :
    s.takeSample.SupervisionLaw := by
  have hcontrol : s.reckonSample.permit.controlSample.SupervisionLaw :=
    (State.controlSample_watched _).law ((State.permit_watched _).law (s.reckonSample_watched.law hl))
  rw [State.takeSample_eq h]
  generalize s.reckonSample.permit.controlSample = c at hcontrol
  have href : Watched c c.ramped :=
    (show Watched c c.formReference from .same).trans (State.endSuspendRamp_steady _).watched
  have hsend (u : State) : Watched u u.sendDrive := .same
  exact ((State.decideChecks_watched _ _).trans (State.settle_sent _).watched).law
    (State.supervise_law _ ((href.trans (hsend _)).law hcontrol))

theorem Sends.state {s t : State} (h : Sends s t) : t.run.state = s.run.state :=
  (congrArg RunControl.state h.run :)

theorem Sends.counter {s t : State} (h : Sends s t) : t.run.counter = s.run.counter :=
  (congrArg RunControl.counter h.run :)

/-- Settles O14: the reference is sent for the state that the Run Controller leaves, and supervision is of
that state too; what follows in the event keeps both or ends them. -/
theorem referenceIsSentAndBounded : Obligations.ReferenceIsSentAndBounded := by
  intro dt s hheld hdue
  have hsends := State.event_sends hheld dt State.takeSample
  have huntaken := (s.advance dt).controlSample_untaken
  have hend := State.takeSample_eq (s := s.advance dt) hdue
  have hbound (hr : s.RangeLaw) := State.RangeLaw.takeSample_bound (s := s.advance dt)
    ⟨hr.sets, hr.consts, hr.decel⟩ hdue
  have hlaw := State.takeSample_supervision (s := s.advance dt) hdue
  have hsent := State.takeSample_sends (s := s.advance dt) hdue rfl
  generalize (s.advance dt).reckonSample.permit.controlSample = v at huntaken hend hsent ⊢
  intro c
  have hc : c = v := rfl
  clear_value c
  subst hc
  intro former fall size creep sup hcurve hlimit
  obtain ⟨he, hv, href, hlink⟩ := hsent
  have hsize : c.refMagnitude = size := by
    unfold State.refMagnitude
    dsimp only [size]
    cases c.run.state
    case settling =>
      cases c.run.flavour with
      | none => rfl
      | some f => cases f <;> rfl
    case faultStopping =>
      cases c.run.stopClass with
      | none => rfl
      | some k => cases k <;> rfl
    all_goals rfl
  have hsup : c.formSup = sup := by
    unfold State.formSup
    dsimp only [sup, creep]
    cases c.distance <;> rfl
  have hset : (s.event dt State.takeSample).settings = (s.advance dt).takeSample.settings := by
    unfold State.settings
    rw [hsends.store]
  refine ⟨_, rfl, ?_⟩
  rw [hsends.brk, hsends.prof, hsends.faults, hsends.state, hsends.counter, hsends.drive, hset, hlink,
    ← hsize, ← hsup]
  refine ⟨he, hv, href, fun hoff => ?_, by rw [he, hv]; rfl, fun hr hf => (hbound hr).1 hf,
    fun hr _ => (hbound hr).2, fun hst => ?_, fun hl => ?_⟩
  · rw [he] at hoff
    rw [hv, hoff]
    rfl
  · have hcurveIff : curveTrips c.absV c.formSup = decide hcurve := by
      rw [hsup]
      rfl
    obtain ⟨hvSup, hstays, htrip, htrip', hno, hno'⟩ := State.endSample_supervised hst
    rw [hend]
    rw [hcurveIff] at htrip hno
    exact ⟨hvSup, hstays, fun h hs => htrip (decide_eq_true h) (huntaken.1 hs),
      fun h hs => htrip' (decide_eq_true h) (huntaken.2 hs), fun h => hno (decide_eq_false h),
      fun h => hno' (decide_eq_false h)⟩
  · intro ht
    rw [hsends.state] at ht
    rw [hsends.prof]
    exact hlaw hl ht

end Sys2Proof.Machine
end

section
/-!
The expiry of filter timers: the slots' outputs, and the feedback source that follows the stall slots.
-/

namespace Sys2Proof.Machine

open Sys2Proof

set_option Elab.async false

/-! ## Reports and conditions that are taken -/

/-- Every report that the Fault Handler takes at one event is in the Active Fault Set (R163). -/
theorem State.takeReports_has (s : State) {rs : List Report} {r : Report} (h : r ∈ rs) :
    ∃ e ∈ (s.takeReports rs).faults, e.kind = r.kind ∧ r.cars.join e.cars = e.cars
      ∧ r.brakes.join e.brakes = e.brakes := by
  have hlatch (rs : List Report) (h : r ∈ rs) : ∀ u : State, ∃ e ∈ (rs.foldl State.latch u).faults,
      e.kind = r.kind ∧ r.cars.join e.cars = e.cars ∧ r.brakes.join e.brakes = e.brakes := by
    induction rs with
    | nil => cases h
    | cons q rs ih =>
      intro u
      rcases List.mem_cons.1 h with rfl | h
      · obtain ⟨e, he, hk, hc, hb⟩ := u.latch_has r
        obtain ⟨e', he', hf⟩ := (Settles.foldl State.latch State.latch_settles rs (u.latch r)).old e he
        exact ⟨e', he', hf.kind.trans hk, CarSet.join_trans hc hf.cars, BrakeSet.join_trans hb hf.brakes⟩
      · exact ih h _
  obtain ⟨e, he, hk, hc, hb⟩ := hlatch rs h s
  obtain ⟨e', he', hf⟩ := (s.takeReports_latched rs).old e he
  exact ⟨e', he', hf.kind.trans hk, CarSet.join_trans hc hf.cars, BrakeSet.join_trans hb hf.brakes⟩

theorem Cond.mem_all (c : Cond) : c ∈ Cond.all := by
  cases c
  case linkLostCar k | doorNotLocked k | carEmergency k => cases k <;> decide
  all_goals decide

/-- A condition that holds when the Fault Handler takes the conditions, and that it has not taken, has its
entry once the event has settled, with the cars it names (R161, R163). -/
theorem State.settle_taken {s : State} {c : Cond} (hc : s.sense.holds c = true) (hn : c ∉ s.conds) :
    ∃ e ∈ s.settle.faults, e.kind = c.kind ∧ c.cars.join e.cars = e.cars := by
  have hrisen : c.report ∈ s.sense.risen.map Cond.report := by
    refine List.mem_map_of_mem (List.mem_filter.2 ⟨List.mem_filter.2 ⟨c.mem_all, hc⟩, ?_⟩)
    rw [State.sense_conds]
    simpa using hn
  obtain ⟨e, he, hk, hcars, -⟩ := s.sense.takeFalls.takeReports_has hrisen
  obtain ⟨e', he', hf⟩ := ((State.runStep_settles s.sense.refresh).trans (State.rounds_settles 7 _)).old e he
  exact ⟨e', he', hf.kind.trans hk, CarSet.join_trans hcars hf.cars⟩

/-- What the Fault Handler finds where the source does not move and the part is REFERENCED. -/
theorem State.sense_still {s : State} (hr : s.reck.referenced = true) (h1 : s.returnToMain = s)
    (h2 : s.bankStep.failover = s.bankStep) (ht : s.takeSources = s) :
    s.sense.reck = s.reck ∧ s.sense.slots = s.slots := by
  obtain ⟨-, hreck, -, hslots⟩ := s.bankStep_keeps
  rw [ht] at hslots
  rw [State.sense, h1, h2, State.terminalReference_same (by rw [hreck]; exact hr)]
  exact ⟨hreck, hslots⟩

/-! ## The source after an event has settled -/

/-- A return of the source at an event (R30). -/
theorem State.settle_return {s : State} (hs : s.reck.source = .alt) (hp : s.run.state = .parked)
    (hf : ∀ e ∈ s.faults, e.kind ≠ .feedbackFailover) (h0 : s.out 0 = false)
    (hr : s.reck.referenced = true) (hd : (s.store.active.filter 0).source ≠ .disagree)
    (ht : s.takeSources = s) : s.settle.reck.source = .main ∧ s.settle.prof.source = .main
      ∧ s.settle.chanPos .main = s.chanPos .alt ∧ s.settle.chanPos .alt = s.chanPos .alt
      ∧ s.settle.reck.disagree
        = decide (mag (s.settle.chanPos .main - s.settle.chanPos .alt) > s.settings.disagree) := by
  obtain ⟨r1, r2, r3, r4, r5, r6, r7, r8, r9⟩ := State.round_return hs hp hf h0 hr hd (by rw [ht])
  have ho := s.round_settles.outer
  have hlevel : s.round.sourceLevel (s.store.active.filter 0).source
      = s.sourceLevel (s.store.active.filter 0).source := State.sourceLevel_same ho.inputs r8 r9 (.inl hd)
  have htake : s.round.takeSources.slots[0]? = s.round.slots[0]? := by
    have h := s.takeSources_getElem? 0
    rw [ht] at h
    rw [State.takeSources_getElem?, r4, ho.store, ho.time]
    simp only [hlevel]
    exact h.symm
  obtain ⟨m1, m2, m3⟩ := State.rounds_main 7 (s := s.round) r3 r1 ((State.out_same r4).trans h0)
    (by rw [ho.store]; exact hd) htake
  have hpos (ch : Channel) : s.settle.chanPos ch = s.round.chanPos ch :=
    State.chanPos_same m1 (State.rounds_settles 7 s.round).outer.store ch
  rw [hpos, hpos, State.settle_succ, m2, m3]
  exact ⟨r1, r2, r5, r6, r7⟩

/-- A failover at an event (R28). -/
theorem State.settle_failover {s : State} (hs : s.reck.source = .main) (h0 : s.out 0 = true)
    (h1 : s.out 1 = false) (hr : s.reck.referenced = true) (ht : s.takeSources = s) :
    s.settle.reck.source = .alt ∧ s.settle.prof.source = .alt ∧ s.settle.reck.disagree = false
      ∧ s.settle.chanPos .alt = s.chanPos .main ∧ s.settle.chanPos .main = s.chanPos .main
      ∧ ∃ e ∈ s.settle.faults, e.kind = .feedbackFailover := by
  obtain ⟨r1, r2, r3, r4, r5, r6, r7⟩ := State.round_failover hs h0 h1 hr ht
  obtain ⟨m1, m2, m3⟩ := State.rounds_alt 7 (s := s.round) r4 r1 r7
  have hset := State.rounds_settles 7 s.round
  have hpos (ch : Channel) : s.settle.chanPos ch = s.round.chanPos ch :=
    State.chanPos_same m1 hset.outer.store ch
  obtain ⟨e, he, hk⟩ := r7
  obtain ⟨e', he', hf⟩ := hset.old e he
  rw [hpos, hpos, State.settle_succ, m2, m3]
  exact ⟨r1, r2, r3, r5, r6, e', he', hf.kind.trans hk⟩

/-- FEEDBACK_LOST where it comes to hold and the source does not move (R29). -/
theorem State.settle_feedbackLost {s : State} (hr : s.reck.referenced = true) (h1 : s.returnToMain = s)
    (h2 : s.bankStep.failover = s.bankStep) (ht : s.takeSources = s) (hl : s.feedbackLost = true)
    (hn : Cond.feedbackLost ∉ s.conds) : ∃ e ∈ s.settle.faults, e.kind = .feedbackLost := by
  obtain ⟨hreck, hslots⟩ := State.sense_still hr h1 h2 ht
  have hholds : s.sense.holds .feedbackLost = true := by
    have hout (i : Nat) : s.sense.out i = s.out i := State.out_same (by rw [hslots])
    show s.sense.feedbackLost = true
    rw [← hl]
    unfold State.feedbackLost
    rw [hreck, hout, hout]
  obtain ⟨e, he, hk, -⟩ := State.settle_taken hholds hn
  exact ⟨e, he, hk⟩

theorem State.not_mem_holding {s : State} {c : Cond} (h : s.holds c = false) : c ∉ s.holding := by
  intro hm
  have := (List.mem_filter.1 hm).2
  rw [h] at this
  cases this

/-! ## The expiry of filter timers -/

theorem State.expireSlots_getElem? (s : State) (which : List (Fin 14)) (i : Nat) :
    (s.expireSlots which).slots[i]? = (s.slots[i]?).map fun sl =>
      if (which.any fun n => n.val == i) && isDue sl.due s.time then
        { sl with due := none }.drive sl.level
      else sl := by
  simp only [State.expireSlots, List.getElem?_map, List.getElem?_zipIdx, Option.map_map,
    Function.comp_def, Nat.zero_add]

/-- The state in which the consequences of an expiry settle. -/
def State.expired (s : State) (which : List (Fin 14)) : State :=
  (s.expireSlots which).takeOutputs s.slots

theorem State.takeFilterExpiry_eq (which : List (Fin 14)) (s : State) :
    State.takeFilterExpiry which s = (s.expired which).settle := rfl

theorem State.expired_outer (s : State) (which : List (Fin 14)) : Outer s (s.expired which) :=
  (s.expireSlots_settles which).outer.trans (State.takeOutputs_settles _ _).outer

/-- The taking of the outputs leaves channels, Reckoner and source, and the slots as the expiry left them. -/
theorem State.expired_steady (s : State) (which : List (Fin 14)) :
    Steady (s.expireSlots which) (s.expired which) := State.takeOutputs_steady _ _

theorem State.expired_out (s : State) (which : List (Fin 14)) (i : Nat) :
    (s.expired which).out i = (s.expireSlots which).out i :=
  State.out_same (by rw [(s.expired_steady which).slots])

/-- The slots that have taken their sources before an expiry have done so after it. -/
theorem State.expired_takeSources {s : State} (h : s.takeSources = s) (which : List (Fin 14)) :
    (s.expired which).takeSources = s.expired which :=
  State.takeSources_still h (fun i => by rw [(s.expired_steady which).slots, State.expireSlots_level])
    (s.expired_outer which).inputs (s.expired_steady which).reck (s.expired_outer which).store

/-- The taking of outputs where no brake stands RELEASED changes no run state and no entry. -/
theorem State.takeOutputs_calm {s : State} (h1 : s.brk.service.state ≠ .released)
    (h2 : s.brk.emergency.state ≠ .released) (old : List Slot) :
    (s.takeOutputs old).run = s.run ∧ (s.takeOutputs old).faults = s.faults := by
  have hlost : s.lostRelease old = ⟨false, false⟩ := by
    simp [State.lostRelease, h1, h2]
  have hlost' : (s.modProf fun p => { p with wind := s.out 9 }).lostRelease old = ⟨false, false⟩ := hlost
  unfold State.takeOutputs State.brakeFeedback
  simp only [hlost, hlost', lostReports]
  simp [State.takeReports, State.latchesEmergency, State.createsStop, State.modBrk, State.modProf]

/-- In a standing state no brake stands RELEASED. -/
theorem State.RunLaws.not_released {s : State} (i : s.RunLaws) (h : s.run.state.standing = true) :
    s.brk.service.state ≠ .released ∧ s.brk.emergency.state ≠ .released := by
  obtain ⟨h1, h2⟩ := i.output.outputs_off (i.standing h)
  exact ⟨fun e => by simp [Brake.output, e] at h1, fun e => by simp [Brake.output, e] at h2⟩

theorem State.takeSources_advance {s : State} (h : s.takeSources = s) (dt : Nat) :
    (s.advance dt).takeSources = s.advance dt :=
  State.takeSources_still h (fun _ => rfl) rfl rfl rfl

/-! ## The answer to a request of the console -/

/-- Beyond the answer of its owning block and the REPLY, the event of a request only sends messages. -/
theorem State.event_replied {s : State} (hr : s.Ready) (hh : s.Hears .console) (dt : Nat) {t : MsgType}
    {pl : List Byte} (ht : t.permitted .console = true) (hl : t.lengthOk pl = true) {u : State} {r : Reply}
    (ha : (s.asked dt).answer .console t pl = (u, r)) :
    Sends (u.reply .console t.code pl r) (s.event dt (State.hear .console t.code pl)) := by
  rw [State.event_request hr hh dt ht hl, State.takeRequest, ha]
  exact State.announce_sends _ _

/-- Apart from links, the event of a request leaves what the answer of its owning block leaves. -/
theorem State.event_answer {s : State} (hr : s.Ready) (hh : s.Hears .console) (dt : Nat) {t : MsgType}
    {pl : List Byte} (ht : t.permitted .console = true) (hl : t.lengthOk pl = true) {u : State} {r : Reply}
    (ha : (s.asked dt).answer .console t pl = (u, r)) : ∃ links,
    Sends { u with links := links } (s.event dt (State.hear .console t.code pl)) :=
  ⟨_, State.event_replied hr hh dt ht hl ha⟩

/-- The acknowledgement of the FEEDBACK_FAILOVER entry in PARKED removes it (R168). -/
theorem State.answerAck_failover {s : State} {tag : Byte} {e : FaultEntry}
    (hf : s.fault .feedbackFailover = some e) (hrep : e.reported = true) (hpres : e.isPresent = false)
    (hp : s.run.state = .parked) :
    s.answer .console .ackFault [tag, 9]
      = (({ s with faults := s.faults.filter fun f => decide (f.kind ≠ .feedbackFailover) } : State).settle,
        { code := .accepted }) := by
  have hk : FaultKind.ofCode (byteAt [tag, 9] 1) = some .feedbackFailover := by decide +revert
  show s.answerAck [tag, 9] = _
  rw [State.answerAck, if_neg (by decide +revert), hk]
  simp [State.ackKind, hf, hrep, hpres, hp, RunState.admitsAck, State.accept]

/-- The first claim of O22: a named slot that is due takes the level it last took. -/
theorem filter_timer_sets_output (dt d : Nat) (slots : List (Fin 14)) (i : Fin 14) (n : Fin 32) (sl : Slot)
    (s : State) (hheld : s.held = false) (hi : i ∈ slots) (hsl : s.slots[i.val]? = some sl)
    (hd : sl.due = some d) (hdue : d ≤ s.time + dt)
    (hsource : (s.store.active.filter i.val).source = .input n) (hlevel : sl.level = s.input n) :
    (s.event dt (State.takeFilterExpiry slots)).slots[i.val]? = some
      { output := sl.level, level := sl.level, due := none, flag := sl.flag || (sl.output != sl.level) } := by
  have houter := (s.advance dt).expired_outer slots
  have hinput : ((s.advance dt).expired slots).input n = s.input n := by
    unfold State.input
    rw [houter.inputs]
    rfl
  have hslot : ((s.advance dt).expired slots).slots[i.val]? = some
      { output := sl.level, level := sl.level, due := none, flag := sl.flag || (sl.output != sl.level) } := by
    have hnamed : (slots.any fun n => n.val == i.val) = true :=
      List.any_eq_true.2 ⟨i, hi, by simp⟩
    have hnow : isDue sl.due (s.advance dt).time = true := by
      rw [hd]
      exact decide_eq_true hdue
    rw [((s.advance dt).expired_steady slots).slots, State.expireSlots_getElem?]
    show (s.slots[i.val]?).map _ = _
    rw [hsl, Option.map_some, hnamed, hnow]
    rfl
  rw [(State.event_sends hheld dt _).slots, State.takeFilterExpiry_eq,
    State.settle_slot (n := n) (by rw [houter.store]; exact hsource), hslot, Option.map_some, Slot.see,
    if_pos (hinput.trans hlevel.symm)]

/-- The last claim of O22: the acknowledgement of the FEEDBACK_FAILOVER entry returns the source to MAIN
(R30). -/
theorem ack_returns_source {s : State} (hready : s.Ready) (hh : s.Hears .console)
    (hr : s.reck.referenced = true) (ht : s.takeSources = s) (dt : Nat) {tag : Byte} {e : FaultEntry}
    (hs : s.reck.source = .alt) (hf : s.fault .feedbackFailover = some e) (hrep : e.reported = true)
    (hpres : e.isPresent = false) (hp : s.run.state = .parked) (h0 : s.out 0 = false)
    (hd : (s.store.active.filter 0).source ≠ .disagree) :
    let t := s.event dt (State.hear .console MsgType.ackFault.code [tag, 9])
    t.reck.source = .main ∧ t.prof.source = .main
      ∧ t.chanPos .main = s.chanPos .alt ∧ t.chanPos .alt = s.chanPos .alt
      ∧ t.reck.disagree = decide (mag (t.chanPos .main - t.chanPos .alt) > s.settings.disagree) := by
  intro t
  have hanswer := State.answerAck_failover (s := s.asked dt) (tag := tag) hf hrep hpres hp
  obtain ⟨links, hsends⟩ := State.event_answer hready hh dt rfl rfl hanswer
  generalize hu : ({ s.asked dt with
    faults := (s.asked dt).faults.filter fun f => decide (f.kind ≠ .feedbackFailover) } : State) = u
    at hsends
  have hgone : ∀ e ∈ u.faults, e.kind ≠ .feedbackFailover := by
    subst hu
    exact fun e he => of_decide_eq_true (List.mem_filter.1 he).2
  have hreck : u.reck = s.reck := by subst hu; rfl
  have hstore : u.store = s.store := by subst hu; rfl
  have hchan : u.chan = s.chan := by subst hu; rfl
  have hslots : u.slots = s.slots := by subst hu; rfl
  have hinputs : u.inputs = s.inputs := by subst hu; rfl
  have hrun : u.run = s.run := by subst hu; rfl
  have hpos (ch : Channel) : u.chanPos ch = s.chanPos ch := State.chanPos_same hchan hstore ch
  have htake : u.takeSources = u :=
    State.takeSources_still ht (fun i => by rw [hslots]) hinputs hreck hstore
  obtain ⟨f1, f2, f3, f4, f5⟩ := State.settle_return (s := u) (by rw [hreck, hs]) (by rw [hrun, hp]) hgone
    ((State.out_same (by rw [hslots])).trans h0) (by rw [hreck, hr]) (by rw [hstore]; exact hd) htake
  generalize u.settle = v at hsends f1 f2 f3 f4 f5
  have hend (ch : Channel) : t.chanPos ch = v.chanPos ch := State.chanPos_same hsends.chan hsends.store ch
  rw [hend, hend, hsends.reck, hsends.prof, f3, f4, hpos]
  refine ⟨f1, f2, rfl, rfl, ?_⟩
  rw [f5, f3, f4, hpos, State.settings, hstore]
  rfl

/-- Settles O22: the source moves in the rounds of the event, by the stall slots that the expiry leaves. -/
theorem filterTimerSetsOutput : Obligations.FilterTimerSetsOutput := by
  refine ⟨fun dt d slots i n sl s hheld hi hsl hd hdue hsource hlevel =>
    ⟨_, rfl, filter_timer_sets_output dt d slots i n sl s hheld hi hsl hd hdue hsource hlevel⟩, ?_⟩
  intro dt slots s hheld hr ht out entered returns
  have hsends := State.event_sends hheld dt (State.takeFilterExpiry slots)
  rw [State.takeFilterExpiry_eq] at hsends
  have hout (i : Nat) : ((s.advance dt).expired slots).out i = out i := State.expired_out _ _ _
  have hsteady := (s.advance dt).expired_steady slots
  have houter := (s.advance dt).expired_outer slots
  have htake := State.expired_takeSources (State.takeSources_advance ht dt) slots
  have hreck : ((s.advance dt).expired slots).reck = s.reck := hsteady.reck
  have hchan : ((s.advance dt).expired slots).chan = s.chan := hsteady.chan
  have hpos (ch : Channel) : ((s.advance dt).expired slots).chanPos ch = s.chanPos ch :=
    State.chanPos_same hchan houter.store ch
  have hend (ch : Channel) : (s.event dt (State.takeFilterExpiry slots)).chanPos ch
      = ((s.advance dt).expired slots).settle.chanPos ch := State.chanPos_same hsends.chan hsends.store ch
  have hconds : ((s.advance dt).expired slots).conds = s.conds := State.takeOutputs_conds _ _
  have hold := (State.takeOutputs_settles ((s.advance dt).expireSlots slots) s.slots).old
  have hsample := (State.settle_keeps ((s.advance dt).expired slots)).settles.outer.sample
  have hcalm := State.takeOutputs_calm (s := (s.advance dt).expireSlots slots) (old := s.slots)
  rw [show ((s.advance dt).expireSlots slots).takeOutputs s.slots = (s.advance dt).expired slots from rfl]
    at hold hcalm
  generalize (s.advance dt).expired slots = x at *
  have hlost : s.conds = s.holding → s.feedbackLost = false → Cond.feedbackLost ∉ x.conds := by
    intro hc hn
    rw [hconds, hc]
    exact State.not_mem_holding hn
  refine ⟨fun hs h0 h1 => ⟨_, rfl, ?_⟩, fun hs h0 h1 hc hn => ⟨_, rfl, ?_⟩, fun hs hf => ⟨_, rfl, ?_⟩,
    fun hs hf hp hlaws h0 hd => ⟨_, rfl, ?_⟩, ?_⟩
  · obtain ⟨f1, f2, f3, f4, f5, f6⟩ := State.settle_failover (s := x) (by rw [hreck, hs])
      (by rw [hout, h0]) (by rw [hout, h1]) (by rw [hreck, hr]) htake
    rw [hend, hend, hsends.reck, hsends.prof, f4, f5, hpos]
    refine ⟨f1, f2, ?_, rfl, rfl, f3, hsample.trans (by rw [hreck])⟩
    show ∃ e ∈ (s.event dt (State.takeFilterExpiry slots)).faults, _
    rw [hsends.faults]
    exact f6
  · have hs' : x.reck.source = .main := by rw [hreck, hs]
    have h1' : x.out 1 = true := by rw [hout, h1]
    obtain ⟨f1, f2, -⟩ := State.rounds_stalled 8 (s := x) (by rw [hreck, hr]) hs' h1' htake
    have hfail : x.bankStep.failover = x.bankStep := by
      rw [State.failover, if_neg]
      rintro ⟨-, -, h⟩
      rw [State.out_same (s := x) (by rw [x.bankStep_keeps.2.2.2, htake]), h1'] at h
      cases h
    have hfb : x.feedbackLost = true := by
      unfold State.feedbackLost
      rw [hs', hout, hout, h0, h1]
      rfl
    rw [hsends.reck, hsends.chan, State.settle, f1, f2]
    refine ⟨hs', hchan, ?_⟩
    show ∃ e ∈ (s.event dt (State.takeFilterExpiry slots)).faults, _
    rw [hsends.faults]
    exact State.settle_feedbackLost (by rw [hreck, hr]) (by simp [State.returnToMain, hs']) hfail htake hfb
      (hlost hc hn)
  · have hs' : x.reck.source = .alt := by rw [hreck, hs]
    obtain ⟨e, he, hk⟩ := hf
    obtain ⟨e', he', hfollows⟩ := hold e he
    have hentry : ∃ e ∈ x.faults, e.kind = .feedbackFailover :=
      ⟨e', he', hfollows.kind.trans hk⟩
    obtain ⟨f1, f2, -⟩ := State.rounds_alt 8 (s := x) (by rw [hreck, hr]) hs' hentry
    have hreturn : x.returnToMain = x := by
      rw [State.returnToMain, if_neg]
      rintro ⟨-, -, h, -⟩
      obtain ⟨e, he, hk⟩ := hentry
      exact State.fault_isNone.1 h e he hk
    have hfail : x.bankStep.failover = x.bankStep := by
      rw [State.failover, if_neg]
      rintro ⟨h, -⟩
      rw [x.bankStep_keeps.2.1, hs'] at h
      cases h
    rw [hsends.reck, hsends.chan, State.settle, f1, f2]
    refine ⟨hs', hchan, fun h1 hc hn => ?_⟩
    have hfb : x.feedbackLost = true := by
      unfold State.feedbackLost
      rw [hs']
      exact (hout 1).trans h1
    show ∃ e ∈ (s.event dt (State.takeFilterExpiry slots)).faults, _
    rw [hsends.faults]
    exact State.settle_feedbackLost (by rw [hreck, hr]) hreturn hfail htake hfb (hlost hc hn)
  · obtain ⟨hb1, hb2⟩ := hlaws.not_released (by rw [hp]; rfl)
    obtain ⟨hrun, hfaults⟩ := hcalm hb1 hb2
    obtain ⟨f1, f2, f3, f4, f5⟩ := State.settle_return (s := x) (by rw [hreck, hs])
      (by rw [hrun]; exact hp) (fun e he hk => hf ⟨e, hfaults ▸ he, hk⟩) (by rw [hout, h0])
      (by rw [hreck, hr]) (by rw [houter.store]; exact hd) htake
    show _ ∧ _ ∧ _ ∧ _ ∧ _
    rw [hend, hend, hsends.reck, hsends.prof, f3, f4, hpos]
    refine ⟨f1, f2, rfl, rfl, ?_⟩
    rw [f5, f3, f4, hpos, State.settings, houter.store]
    rfl
  · exact fun tag e hq hh hs hf hrep hpres hp h0 hd =>
      ⟨_, rfl, ack_returns_source ⟨hheld, hq⟩ hh hr ht dt hs hf hrep hpres hp h0 hd⟩

end Sys2Proof.Machine
end

section
/-!
The run's timers: a state at rest that a timer's expiry moves on, and the ends of PREPARING and DWELL and of
a creep hold.
-/

namespace Sys2Proof.Machine

open Sys2Proof

set_option Elab.async false

/-! ## Conditions and rest -/

/-- The conditions that hold rest on these parts of the state (R29, R42, R90, R159 to R161). -/
theorem State.holds_same {s t : State} (hslots : t.slots = s.slots) (hreck : t.reck = s.reck)
    (hrecs : t.recs = s.recs) (hup : ∀ p, t.linkUp p = s.linkUp p)
    (htable : t.tableInvalid = s.tableInvalid) (hcurve : t.prof.curve = s.prof.curve)
    (hlimit : t.prof.limit = s.prof.limit)
    (hdoor : t.run.state.doorSupervised = s.run.state.doorSupervised) (c : Cond) :
    t.holds c = s.holds c := by
  cases c <;>
    simp only [State.holds, State.feedbackLost, State.feedbackDisagree, State.driveFault,
      State.doorNotLocked, State.loopGateOpen, State.out, hslots, hreck, hrecs, hup, htable, hcurve,
      hlimit, hdoor]

/-- A state that a move leaves at rest: what the blocks detect from stands. -/
theorem State.AtRest.like {s t : State} (h : s.AtRest) (hcurve : t.prof.curve = s.prof.curve)
    (hlimit : t.prof.limit = s.prof.limit)
    (hdoor : t.run.state.doorSupervised = s.run.state.doorSupervised)
    (hspeed : t.run.state.speedSupervised = s.run.state.speedSupervised)
    (hslots : t.slots = s.slots := by rfl) (hinputs : t.inputs = s.inputs := by rfl)
    (hreck : t.reck = s.reck := by rfl) (hstore : t.store = s.store := by rfl)
    (hwind : t.prof.wind = s.prof.wind := by rfl) (hconds : t.conds = s.conds := by rfl)
    (hstand : t.run.standstill = s.run.standstill := by rfl)
    (hup : ∀ p, t.linkUp p = s.linkUp p := by exact fun _ => rfl) (hrecs : t.recs = s.recs := by rfl)
    (htable : t.tableInvalid = s.tableInvalid := by rfl) : t.AtRest where
  slots := State.takeSources_still h.slots (fun i => by rw [hslots]) hinputs hreck hstore
  wind := by
    have hout (i : Nat) : t.out i = s.out i := State.out_same (by rw [hslots])
    rw [hwind, h.wind, hout]
  noFailover := by
    have hout (i : Nat) : t.out i = s.out i := State.out_same (by rw [hslots])
    rw [hreck, hout, hout]
    exact h.noFailover
  noReturn := by rw [hreck]; exact h.noReturn
  noReference := by
    have hout (i : Nat) : t.out i = s.out i := State.out_same (by rw [hslots])
    rw [hreck, hstand, hout, hout]
    exact h.noReference
  speed := by rw [hspeed, hcurve, hlimit]; exact h.speed
  conds := by
    rw [hconds, h.conds]
    unfold State.holding
    congr 1
    funext c
    exact (State.holds_same hslots hreck hrecs hup htable hcurve hlimit hdoor c).symm

/-- A state at rest stays so where the run state changes among those that are supervised alike. -/
theorem State.AtRest.enter {s : State} (h : s.AtRest) {st : RunState} (f : Option Flavour)
    (c : Option StopClass) (hdoor : st.doorSupervised = s.run.state.doorSupervised)
    (hspeed : st.speedSupervised = s.run.state.speedSupervised) : (s.enterState st f c).AtRest := by
  have hkept : (s.enterState st f c).prof.curve = s.prof.curve
      ∧ (s.enterState st f c).prof.limit = s.prof.limit := by
    show (s.prof.curve && st.speedSupervised) = _ ∧ (s.prof.limit && st.speedSupervised) = _
    cases hst : st.speedSupervised with
    | true => exact ⟨Bool.and_true _, Bool.and_true _⟩
    | false =>
      obtain ⟨hc, hl⟩ := h.speed (hspeed ▸ hst)
      rw [hc, hl]
      exact ⟨rfl, rfl⟩
  exact h.like hkept.1 hkept.2 hdoor hspeed

theorem State.AtRest.advance {s : State} (h : s.AtRest) (dt : Nat) : (s.advance dt).AtRest :=
  h.like rfl rfl rfl rfl

/-- A run state in which neither doors nor speed are supervised. -/
def RunState.unsupervised : RunState → Bool
  | .parked | .preparing | .dwell | .suspended | .faultHeld => true
  | _ => false

theorem RunState.unsupervised_alike {st : RunState} (h : st.unsupervised = true) :
    st.doorSupervised = false ∧ st.speedSupervised = false := by
  cases st <;> first | exact ⟨rfl, rfl⟩ | cases h

theorem State.AtRest.enterParked {s : State} (h : s.AtRest) (hu : s.run.state.unsupervised = true) :
    s.enterParked.AtRest := by
  obtain ⟨hd, hs⟩ := RunState.unsupervised_alike hu
  exact (h.enter (st := .parked) none none hd.symm hs.symm).like rfl rfl rfl rfl

/-! ## The settling of a state at rest -/

/-- Where a round leads to a state at rest in which the Run Controller has no move, the event has settled. -/
theorem State.settle_round {s t : State} (hround : s.round = t) (ht : t.AtRest) (hstep : t.runStep = t) :
    s.settle = t := by
  rw [State.settle_succ, hround]
  exact State.rounds_fixed (ht.round.trans hstep) 7

/-- PARKED with nothing to do: an arbitration event leaves the state (R61, R62). -/
theorem State.AtRest.settle_parked {s : State} (h : s.AtRest) (hp : s.run.state = .parked)
    (hc : s.choose = .nothing) :
    s.settle = s.modRun fun r => { r with arbitrate := false } := by
  have hrest : (s.modRun fun r => { r with arbitrate := false }).AtRest := h.like rfl rfl rfl rfl
  refine State.settle_round ?_ hrest (State.runStep_parked hp rfl)
  rw [h.round]
  cases ha : s.run.arbitrate with
  | false =>
    rw [State.runStep_parked hp ha]
    show s = { s with run := { s.run with arbitrate := false } }
    rw [← ha]
  | true =>
    have harb : s.runStep = s.arbitrate := by simp [State.runStep, hp, ha]
    have hchoose : (s.modRun fun r => { r with arbitrate := false }).choose = .nothing := hc
    rw [harb, State.arbitrate]
    simp only [hchoose]
    split <;> rfl

/-- Where a round parks a line at rest and nothing is left to do, the event ends there. -/
theorem State.AtRest.settle_parksFrom {s w : State} (h : w.AtRest) (hu : w.run.state.unsupervised = true)
    (hround : s.round = w.enterParked) (hc : w.enterParked.choose = .nothing) :
    s.settle = w.enterParked.modRun fun r => { r with arbitrate := false } := by
  have hparked := h.enterParked hu
  have hrest : (w.enterParked.modRun fun r => { r with arbitrate := false }).AtRest :=
    hparked.like rfl rfl rfl rfl
  have hsecond : w.enterParked.round = w.enterParked.modRun fun r => { r with arbitrate := false } := by
    have hchoose : (w.enterParked.modRun fun r => { r with arbitrate := false }).choose = .nothing := hc
    have harb : w.enterParked.runStep = w.enterParked.arbitrate := rfl
    rw [hparked.round, harb, State.arbitrate]
    simp only [hchoose]
    split <;> rfl
  rw [State.settle_succ, hround]
  show State.rounds 6 w.enterParked.round = _
  rw [hsecond]
  exact State.rounds_fixed (hrest.round.trans (State.runStep_parked rfl rfl)) 6

/-- Where a move parks the line and nothing is left to do, the event ends there. -/
theorem State.AtRest.settle_parks {s : State} (h : s.AtRest) (hu : s.run.state.unsupervised = true)
    (hstep : s.runStep = s.enterParked) (hc : s.enterParked.choose = .nothing) :
    s.settle = s.enterParked.modRun fun r => { r with arbitrate := false } :=
  h.settle_parksFrom hu (h.round.trans hstep) hc

/-- With no entry eligible and the shuttle inactive arbitration finds nothing to do (R62, R64). -/
theorem State.choose_nothing {s : State} (he : s.oldestEligible = none) (hs : s.shuttle.active = false) :
    s.choose = .nothing := by
  unfold State.choose
  rw [he, hs]
  rfl

theorem State.choose_empty {s : State} (hq : s.queue = []) (hs : s.shuttle.active = false) :
    s.choose = .nothing :=
  State.choose_nothing (by rw [State.oldestEligible, hq]; rfl) hs

/-! ## A report that stops nothing -/

/-- A report whose entry, in the set or new, has a class below SERVICE_STOP only changes the set. -/
theorem State.report_mild {s : State} {r : Report} (hnew : (s.store.active.classOf r.kind).rank = 0)
    (hold : ∀ e ∈ s.faults, e.kind = r.kind → e.cls.rank = 0) :
    ∃ f, s.report r = { s with faults := f } := by
  have hnone : s.latchesEmergency [r] = false := by
    unfold State.latchesEmergency
    simp only [List.any_cons, List.any_nil, Bool.or_false]
    split
    next e he =>
      have hz := hold e (List.mem_of_find?_eq_some he) (by simpa using List.find?_some he)
      exact decide_eq_false fun h => by rw [h] at hz; exact absurd hz (by decide)
    next =>
      exact decide_eq_false fun h => by rw [h] at hnew; exact absurd hnew (by decide)
  have hstop : s.createsStop [r] = false := by
    simp [State.createsStop, hnew]
  obtain ⟨f, hf⟩ := State.latches_eq [r] s
  refine ⟨f, ?_⟩
  unfold State.report State.takeReports
  simp only [hnone, hstop]
  exact hf

/-! ## PREPARING abandoned -/

theorem State.takePrepareExpiry_due {s : State} {d : Nat} {r : RunRecord} (hd : s.run.prepareDue = some d)
    (hdue : d ≤ s.time) (hp : s.run.state = .preparing) (hr : s.run.record = some r) :
    s.takePrepareExpiry
      = ((s.removeServed r.served).enterParked.report { kind := .prepareTimeout }).settle := by
  have hnow : isDue s.run.prepareDue s.time = true := by
    rw [hd]
    exact decide_eq_true hdue
  unfold State.takePrepareExpiry
  rw [if_pos ⟨hnow, hp⟩, State.expirePrepare, hr]
  rfl

theorem Sends.creepDue {s t : State} (h : Sends s t) : t.run.creepDue = s.run.creepDue :=
  (congrArg RunControl.creepDue h.run :)

/-- PREPARE_TIMEOUT has a class below SERVICE_STOP in every class table (R158). -/
theorem State.FaultLaw.prepareTimeout {s : State} (h : s.FaultLaw) :
    (s.store.active.classOf .prepareTimeout).rank = 0
    ∧ ∀ e ∈ s.faults, e.kind = .prepareTimeout → e.cls.rank = 0 := by
  obtain ⟨hsets, -, hentries⟩ := h
  refine ⟨?_, fun e he hk => ?_⟩
  · rw [((hsets s.store.active (by simp [Store.sets])).2 .prepareTimeout).2 rfl]
    rfl
  · rw [(hentries e he).2.2.2 (by rw [hk]; rfl), hk]
    rfl

/-- Settles O23: the run is abandoned, and with nothing waiting the event ends in PARKED. -/
theorem prepareTimeoutAbandonsRun : Obligations.PrepareTimeoutAbandonsRun := by
  intro dt d r s hheld hd hdue hp hr
  have hsends := State.event_sends hheld dt State.takePrepareExpiry
  rw [State.takePrepareExpiry_due (s := s.advance dt) hd hdue hp hr] at hsends
  have hqueue : ∀ e ∈ ((s.advance dt).removeServed r.served).enterParked.queue, e.id ∉ r.served :=
    fun e he => by simpa using (List.mem_filter.1 he).2
  have hsub : (((s.advance dt).removeServed r.served).enterParked.queue.map (·.id)).Sublist
      (s.queue.map (·.id)) := List.filter_sublist.map _
  have hstore : ((s.advance dt).removeServed r.served).enterParked.store = s.store := rfl
  have hcreep : ((s.advance dt).removeServed r.served).enterParked.run.creepDue = none := rfl
  have hrest (hs : s.AtRest) : ((s.advance dt).removeServed r.served).enterParked.AtRest := by
    refine State.AtRest.enterParked ((hs.advance dt).like rfl rfl rfl rfl) ?_
    show s.run.state.unsupervised = true
    rw [hp]
    rfl
  have hfaults : ((s.advance dt).removeServed r.served).enterParked.faults = s.faults := rfl
  have hparked : ((s.advance dt).removeServed r.served).enterParked.run
      = { s.run with
          state := .parked, flavour := none, stopClass := none, dwellStop := none, dwellErr := ⟨0, 0⟩
          approaching := s.run.approaching && false
          changed := s.run.changed || decide (s.run.state ≠ .parked), record := none, prepareDue := none
          dwellDue := none, creepDue := none, arbitrate := true } := rfl
  have hempty (hq : s.queue.all (fun e => r.served.contains e.id) = true) :
      ((s.advance dt).removeServed r.served).enterParked.queue = [] := by
    refine List.filter_eq_nil_iff.2 fun e he => ?_
    have := List.all_eq_true.1 hq e he
    simpa using this
  have hrest' : ((s.advance dt).removeServed r.served).enterParked.target = none
      ∧ ((s.advance dt).removeServed r.served).enterParked.brk = s.brk
      ∧ ((s.advance dt).removeServed r.served).enterParked.shuttle = s.shuttle := ⟨rfl, rfl, rfl⟩
  generalize ((s.advance dt).removeServed r.served).enterParked = p at *
  have hreport := (p.report_settles { kind := .prepareTimeout }).trans (State.settle_settles _)
  have hpaced : Paced p (p.report { kind := .prepareTimeout }).settle :=
    (p.takeReports_paced [{ kind := .prepareTimeout }]).trans (State.settle_paced _)
  obtain ⟨e, he, hk, -⟩ := p.report_has { kind := .prepareTimeout }
  obtain ⟨e', he', hf⟩ := (State.settle_settles (p.report { kind := .prepareTimeout })).old e he
  refine ⟨_, rfl, ?_⟩
  rw [hsends.faults, hsends.queue, hsends.creepDue, hsends.store]
  refine ⟨⟨e', he', hf.kind.trans hk⟩, fun x hx => ?_, hreport.queue.trans hsub, hpaced.creepDue hcreep,
    hreport.outer.store.trans hstore, fun hs hall hshut hfl hstop => ?_⟩
  · obtain ⟨y, hy, hid⟩ := List.mem_map.1 (hreport.queue.subset (List.mem_map_of_mem hx))
    rw [← hid]
    exact hqueue y hy
  · obtain ⟨hmild, hmild'⟩ := hfl.prepareTimeout
    obtain ⟨f, hlatched⟩ := State.report_mild (s := p) (r := { kind := .prepareTimeout })
      (by rw [hstore]; exact hmild) (by rw [hfaults]; exact hmild')
    have hp' : ({ p with faults := f } : State).run.state = .parked := congrArg RunControl.state hparked
    have hsettle := State.AtRest.settle_parked (s := { p with faults := f })
      ((hrest hs).like rfl rfl rfl rfl) hp'
      (State.choose_empty (hempty hall) (by show p.shuttle.active = false; rw [hrest'.2.2]; exact hshut))
    rw [hlatched, hsettle] at hsends ⊢
    have hrecord : p.run.record = none := congrArg RunControl.record hparked
    have hprepare : p.run.prepareDue = none := congrArg RunControl.prepareDue hparked
    have hcounter : p.run.counter = s.run.counter := by rw [hparked]
    exact ⟨hsends.state.trans hp', (congrArg RunControl.record hsends.run :).trans hrecord,
      (congrArg RunControl.prepareDue hsends.run :).trans hprepare, hsends.target.trans hrest'.1,
      hsends.counter.trans hcounter, hempty hall, hsends.brk.trans hrest'.2.1⟩

/-! ## The end of DWELL -/

/-- A dwell timer that is due is idle, and then the event settles (R95). -/
theorem State.takeDwellExpiry_due {s : State} {d : Nat} (hd : s.run.dwellDue = some d)
    (hdue : d ≤ s.time) :
    s.takeDwellExpiry = (s.modRun fun r => { r with dwellDue := none }).settle := by
  have hnow : isDue s.run.dwellDue s.time = true := by
    rw [hd]
    exact decide_eq_true hdue
  exact if_pos hnow

/-- DWELL at a stop ends once the timer is idle, both cars' doors are locked, and at LOOP, with its link UP,
both gates are (R95). -/
theorem State.dwellOver_iff {s : State} {x : Stop} (hx : s.run.dwellStop = some x)
    (hd : s.run.dwellDue = none) :
    s.dwellOver = true ↔ s.recs.car.one.doors = .closedLocked ∧ s.recs.car.two.doors = .closedLocked
      ∧ (x = .loop → s.linkUp .loopStation = true →
        s.recs.loop.east = .closedLocked ∧ s.recs.loop.west = .closedLocked) := by
  simp only [State.dwellOver, hx, hd, Bool.and_eq_true, Bool.or_eq_true, decide_eq_true_eq, ne_eq,
    Option.some.injEq, Bool.not_eq_true', true_and, and_assoc]
  refine and_congr_right fun _ => and_congr_right fun _ => ?_
  cases s.linkUp .loopStation <;> by_cases hl : x = .loop <;> simp [hl]

/-- DWELL stands while it is not over (R95). -/
theorem State.runStep_dwell {s : State} (hd : s.run.state = .dwell) :
    s.runStep = if s.dwellOver then s.enterParked else s := by
  unfold State.runStep
  rw [hd]

/-- Settles O24: by whether all that DWELL asks for is locked at the expiry. -/
theorem dwellTimerEndsDwell : Obligations.DwellTimerEndsDwell := by
  intro dt d x s hheld hrest hd hdue hdwell hx hstop gatesLocked
  have hsends := State.event_sends hheld dt State.takeDwellExpiry
  rw [State.takeDwellExpiry_due (s := s.advance dt) hd hdue] at hsends
  have hu : ((s.advance dt).modRun fun r => { r with dwellDue := none }).AtRest :=
    (hrest.advance dt).like rfl rfl rfl rfl
  have hstep := State.runStep_dwell (s := (s.advance dt).modRun fun r => { r with dwellDue := none }) hdwell
  have hover := State.dwellOver_iff (s := (s.advance dt).modRun fun r => { r with dwellDue := none }) hx rfl
  refine ⟨_, rfl, fun hopen => ?_, fun hone htwo hgates hq hshut => ?_⟩
  · have hheld' : ((s.advance dt).modRun fun r => { r with dwellDue := none }).dwellOver = false := by
      refine Bool.eq_false_iff.2 fun h => ?_
      obtain ⟨hone, htwo, hgates⟩ := hover.1 h
      obtain h1 | h2 | ⟨hl, hup, hg⟩ := hopen
      · exact h1 hone
      · exact h2 htwo
      · exact hg (hgates hl hup)
    rw [hheld', if_neg Bool.false_ne_true] at hstep
    rw [hu.settle hstep] at hsends
    exact ⟨hsends.state.trans hdwell, (congrArg RunControl.dwellStop hsends.run :).trans hx,
      (congrArg RunControl.dwellDue hsends.run :), hsends.queue, hsends.brk⟩
  · rw [hover.2 ⟨hone, htwo, hgates⟩, if_pos rfl] at hstep
    rw [hu.settle_parks (by show s.run.state.unsupervised = true; rw [hdwell]; rfl) hstep
      (State.choose_empty hq hshut)] at hsends
    have hnone : (s.event dt State.takeDwellExpiry).run.dwellStop = none :=
      (congrArg RunControl.dwellStop hsends.run :)
    refine ⟨hsends.state, hnone, (congrArg RunControl.dwellDue hsends.run :), hsends.brk, ?_, ?_⟩ <;>
      simp [State.doorRelease, hnone]

/-! ## The lapse of a creep hold -/

theorem State.takeCreepLapse_due {s : State} {d : Nat} (hd : s.run.creepDue = some d)
    (hdue : d ≤ s.time) : s.takeCreepLapse = s.lapse := by
  have hnow : isDue s.run.creepDue s.time = true := by
    rw [hd]
    exact decide_eq_true hdue
  exact if_pos hnow

/-- Whatever the run state, the lapse leaves no creep hold (R101). -/
theorem State.lapse_creepDue (s : State) : s.lapse.run.creepDue = none := by
  have hsettling : (s.enterSettling .creepLapse).settle.run.creepDue = none :=
    (State.settle_paced _).creepDue rfl
  unfold State.lapse
  split
  case h_1 => exact (State.settle_paced _).creepDue rfl
  case h_5 => rfl
  all_goals exact hsettling

/-- SETTLING stands while the rope does not and a brake is open (R91, R92). -/
theorem State.runStep_settling {s : State} (hst : s.run.state = .settling)
    (hstand : s.run.standstill = false) (hopen : s.bothBrakes .applied = false) : s.runStep = s := by
  have happly : ¬ (s.run.standstill = true ∧ s.prof.vRef = 0) := by
    rw [hstand]
    exact fun h => Bool.false_ne_true h.1
  simp only [State.runStep, hst, State.runSettling, if_neg happly, hopen, Bool.false_eq_true, if_false]

/-- Settles O25: a moving run is in SETTLING, where nothing more is to be done while the rope moves. -/
theorem creepLapseSettles : Obligations.CreepLapseSettles := by
  intro dt d s hheld hd hdue
  have hsends := State.event_sends hheld dt State.takeCreepLapse
  rw [State.takeCreepLapse_due (s := s.advance dt) hd hdue] at hsends
  refine ⟨_, rfl, hsends.creepDue.trans (State.lapse_creepDue _), fun hrest hst hstand hserv hstop => ?_⟩
  have hsup : s.run.state.doorSupervised = true ∧ s.run.state.speedSupervised = true := by
    rcases hst with h | h <;> rw [h] <;> exact ⟨rfl, rfl⟩
  have hlapse : (s.advance dt).lapse = ((s.advance dt).enterSettling .creepLapse).settle := by
    have hst' : (s.advance dt).run.state = .running ∨ (s.advance dt).run.state = .finalApproach := hst
    unfold State.lapse
    rcases hst' with h | h <;> rw [h]
  have hu : ((s.advance dt).enterSettling .creepLapse).AtRest :=
    ((hrest.advance dt).enter (st := .settling) (some .creepLapse) none hsup.1.symm hsup.2.symm).like
      rfl rfl rfl rfl
  have hopen : ((s.advance dt).enterSettling .creepLapse).bothBrakes .applied = false := by
    have hservice : ((s.advance dt).enterSettling .creepLapse).brk.service.state = .released := hserv
    rw [State.bothBrakes, hservice]
    rfl
  rw [hlapse, hu.settle (State.runStep_settling rfl hstand hopen)] at hsends
  exact ⟨hsends.state, (congrArg RunControl.flavour hsends.run :), (congrArg Profile.vRef hsends.prof :),
    (congrArg RunControl.record hsends.run :), hsends.brk⟩

end Sys2Proof.Machine
end

section
/-!
The brakes' deadlines, the effectiveness checks and the quick-stop timer.  While a stop is demanded an event
only lowers the outputs, whatever else it brings.
-/

namespace Sys2Proof.Machine

open Sys2Proof

set_option Elab.async false

/-! ## What only lowers the outputs -/

/-- From s to t the outputs are at most lowered, and the rail brake demand stands. -/
structure Grounds (s t : State) : Prop where
  lowers : Lowers s t
  rail : t.brk.rail = s.brk.rail

theorem Grounds.same {s t : State} (h : t.brk = s.brk) : Grounds s t := ⟨.same h, by rw [h]⟩

theorem Grounds.refl (s : State) : Grounds s s := .same rfl

theorem Grounds.trans {s t u : State} (a : Grounds s t) (b : Grounds t u) : Grounds s u :=
  ⟨a.lowers.trans b.lowers, b.rail.trans a.rail⟩

theorem State.startCheck_rail (s : State) (b : BrakeSet) : (s.startCheck b).brk.rail = s.brk.rail := by
  unfold State.startCheck
  simp only
  split <;> rfl

theorem State.apply_rail (s : State) (w : BrakeSet) : (s.apply w).brk.rail = s.brk.rail :=
  State.startCheck_rail _ _

/-- An APPLY changes the brakes alone (R143, R148). -/
theorem State.apply_eq (s : State) (w : BrakeSet) : s.apply w = { s with brk := (s.apply w).brk } := by
  have hstart (u : State) (b : BrakeSet) : u.startCheck b = { u with brk := (u.startCheck b).brk } := by
    unfold State.startCheck
    simp only
    split <;> rfl
  unfold State.apply
  simp only
  rw [hstart]
  rfl

theorem State.disableDrive_grounds (s : State) : Grounds s s.disableDrive :=
  ⟨s.disableDrive_lowers, s.apply_rail _⟩

theorem State.emergencyDemand_grounds (s : State) : Grounds s s.emergencyDemand :=
  ⟨s.emergencyDemand_lowers, s.apply_rail _⟩

theorem State.classApply_grounds (s : State) : Grounds s s.classApply :=
  ⟨s.classApply_lowers, s.apply_rail _⟩

theorem State.startClass_grounds (s : State) (c : StopClass) : Grounds s (s.startClass c) :=
  ⟨s.startClass_lowers c, by unfold State.startClass; split <;> rfl⟩

theorem State.brakeFeedback_grounds (s : State) (old : List Slot) : Grounds s (s.brakeFeedback old) := by
  refine ⟨s.brakeFeedback_lowers old, ?_⟩
  unfold State.brakeFeedback
  simp only
  split <;> split
  · exact (State.apply_rail _ _).trans (State.apply_rail _ _)
  · exact State.apply_rail _ _
  · exact State.apply_rail _ _
  · rfl

theorem State.latches_brk (rs : List Report) (s : State) : (rs.foldl State.latch s).brk = s.brk := by
  obtain ⟨f, h⟩ := State.latches_eq rs s
  rw [h]

theorem State.reactToFault_grounds (s : State) (c : StopClass) : Grounds s (s.reactToFault c) := by
  have hstop : Grounds s (s.enterFaultStopping c) :=
    (Grounds.same rfl : Grounds s (s.clearCalls.dropRun.enterState .faultStopping none (some c))).trans
      (State.startClass_grounds _ c)
  have hraise : Grounds s (s.raiseClass c) :=
    (Grounds.same rfl : Grounds s (s.enterState .faultStopping none (some c))).trans
      (State.startClass_grounds _ c)
  have hheld : Grounds s s.enterFaultHeld := .same rfl
  unfold State.reactToFault
  repeat' split
  case h_11 => exact Grounds.refl s
  all_goals first | exact hheld | exact hstop | exact hraise | exact Grounds.refl s

theorem State.takeReports_grounds (s : State) (rs : List Report) : Grounds s (s.takeReports rs) := by
  have h1 : Grounds s (rs.foldl State.latch s) := .same (State.latches_brk rs s)
  unfold State.takeReports
  have h2 : Grounds s (if s.latchesEmergency rs then (rs.foldl State.latch s).emergencyDemand
      else rs.foldl State.latch s) := by
    split
    · exact h1.trans (State.emergencyDemand_grounds _)
    · exact h1
  simp only
  split
  · exact h2.trans (State.reactToFault_grounds _ _)
  · exact h2

theorem State.bankStep_grounds (s : State) : Grounds s s.bankStep := by
  have hsources : Grounds s s.takeSources := .same rfl
  have hwind : Grounds s.takeSources
      (s.takeSources.modProf fun p => { p with wind := s.takeSources.out 9 }) := .same rfl
  exact ((hsources.trans hwind).trans (State.brakeFeedback_grounds _ _)).trans
    (State.takeReports_grounds _ _)

theorem State.takeCreepTarget_brk (s : State) (x : Int) : (s.takeCreepTarget x).brk = s.brk := by
  unfold State.takeCreepTarget
  repeat' split
  all_goals rfl

theorem State.reference_brk (s : State) (x : Int) (zones : PerCar (List Zone)) :
    (s.reference x zones).brk = s.brk := by
  exact State.takeCreepTarget_brk _ x

theorem State.detect_grounds (s : State) : Grounds s s.detect := by
  have h1 : Grounds s s.returnToMain := by
    unfold State.returnToMain
    split <;> exact .same rfl
  have h2 (u : State) : Grounds u u.failover := by
    unfold State.failover
    split
    · exact (Grounds.same rfl : Grounds u (((u.modChan .alt fun c => c.rebase (u.chanPos .main)).setSource
        .alt).evalDisagree)).trans (State.takeReports_grounds _ _)
    · exact .refl u
  have h3 (u : State) : Grounds u u.terminalReference := by
    unfold State.terminalReference
    split
    · exact .same (u.reference_brk _ _)
    · exact .refl u
  have h4 (u : State) : Grounds u u.refresh :=
    (Grounds.same rfl : Grounds u u.takeFalls).trans (State.takeReports_grounds _ _)
  exact (((h1.trans (State.bankStep_grounds _)).trans (h2 _)).trans (h3 _)).trans (h4 _)

theorem State.runFaultStopping_grounds (s : State) : Grounds s s.runFaultStopping := by
  have h1 : Grounds s (if s.classApplies then s.classApply else s) := by
    split
    · exact s.classApply_grounds
    · exact .refl s
  unfold State.runFaultStopping
  simp only
  generalize (if s.classApplies then s.classApply else s) = u at h1
  have h2 : Grounds s (if u.brakesDone ∧ u.brk.enable = true then u.disableDrive else u) := by
    split
    · exact h1.trans u.disableDrive_grounds
    · exact h1
  generalize (if u.brakesDone ∧ u.brk.enable = true then u.disableDrive else u) = v at h2
  split
  · exact h2.trans (.same rfl)
  · exact h2

/-- In a fault state with a stop demanded the Run Controller's move only lowers (R104, R105). -/
theorem State.runStep_grounds {s : State} (hf : s.run.state.isFault = true)
    (hd : s.stopDemanded = true) : Grounds s s.runStep := by
  cases hst : s.run.state <;> rw [hst] at hf
  case faultStopping =>
    have hstep : s.runStep = s.runFaultStopping := by simp only [State.runStep, hst]
    rw [hstep]
    exact s.runFaultStopping_grounds
  case faultHeld =>
    rw [State.runStep_faultHeld hst hd]
    exact .refl s
  all_goals cases hf

/-- While a stop is demanded the settling of an event only lowers the outputs (R103 to R105, R154). -/
theorem State.settle_grounds {s : State} (i : s.RunLaws) (hd : s.stopDemanded = true) :
    Grounds s s.settle := by
  have hrounds (n : Nat) : ∀ u : State, u.RunLaws → u.stopDemanded = true → Grounds u (State.rounds n u) := by
    induction n with
    | zero => exact fun u _ _ => .refl u
    | succ n ih =>
      intro u iu hu
      have i1 := State.detect_inv iu
      have hd1 := u.detect_settles.stopDemanded hu
      exact (u.detect_grounds.trans (State.runStep_grounds (i1.stop hd1) hd1)).trans
        (ih _ (State.runStep_inv i1) ((State.runStep_settles _).stopDemanded hd1))
  exact hrounds 8 s i hd

/-- All three outputs are de-energised (R154). -/
def State.AllOff (s : State) : Prop :=
  s.brk.enable = false ∧ s.brk.service.output = false ∧ s.brk.emergency.output = false

theorem Lowers.allOff {s t : State} (h : Lowers s t) (o : s.AllOff) : t.AllOff := by
  obtain ⟨he, hs, hm⟩ := o
  exact ⟨h.off he, Bool.eq_false_iff.2 fun g => Bool.eq_false_iff.1 hs (h.service g),
    Bool.eq_false_iff.2 fun g => Bool.eq_false_iff.1 hm (h.emergency g)⟩

/-! ## A report of a kind that is always EMERGENCY -/

/-- A kind whose class is EMERGENCY and fixed (R158). -/
def FaultKind.alwaysEmergency (k : FaultKind) : Prop := k.floor = none ∧ k.defaultClass = .emergency

/-- The class tables and the entries give such a kind the class EMERGENCY (R158, R162). -/
theorem State.FaultLaw.emergency {s : State} {k : FaultKind} (h : s.FaultLaw) (hk : k.alwaysEmergency) :
    s.store.active.classOf k = .emergency ∧ ∀ e ∈ s.faults, e.kind = k → e.cls = .emergency := by
  obtain ⟨hsets, -, hentries⟩ := h
  obtain ⟨hfloor, hcls⟩ := hk
  refine ⟨?_, fun e he hkind => ?_⟩
  · rw [((hsets s.store.active (by simp [Store.sets])).2 k).2 hfloor, hcls]
  · subst hkind
    rw [(hentries e he).2.2.2 hfloor, hcls]

/-- The report of such a kind brings an entry of class EMERGENCY, and with it the demand that de-energises
every output (R154). -/
theorem State.report_emergency {s : State} {r : Report} (h : s.FaultLaw) (hk : r.kind.alwaysEmergency) :
    (s.report r).AllOff ∧ (s.report r).stopDemanded = true := by
  obtain ⟨hnew, hold⟩ := h.emergency hk
  have hlatches : s.latchesEmergency [r] = true := by
    unfold State.latchesEmergency
    simp only [List.any_cons, List.any_nil, Bool.or_false]
    split
    next e he =>
      exact decide_eq_true (hold e (List.mem_of_find?_eq_some he) (by simpa using List.find?_some he))
    next => exact decide_eq_true hnew
  constructor
  · unfold State.report State.takeReports
    simp only [hlatches, if_true]
    have hoff := State.emergencyDemand_off ([r].foldl State.latch s)
    split
    · exact (State.reactToFault_grounds _ _).lowers.allOff hoff
    · exact hoff
  · obtain ⟨e, he, hkind, -⟩ := s.report_has r
    have hlaw : (s.report r).FaultLaw := State.faultLaw.keeps (s.takeReports_keeps [r]) h
    refine mem_stopDemanded.2 ⟨e, he, ?_⟩
    rw [(hlaw.emergency hk).2 e he hkind]
    decide

/-- What is left of such a report once the event has settled: its entry, and every output off. -/
theorem State.settle_emergency {s : State} {r : Report} (i : s.RunLaws) (h : s.FaultLaw)
    (hk : r.kind.alwaysEmergency) :
    (∃ e ∈ (s.report r).settle.faults, e.kind = r.kind ∧ e.cls = .emergency
        ∧ r.brakes.join e.brakes = e.brakes)
      ∧ (s.report r).settle.AllOff ∧ (s.report r).settle.run.state.isFault = true := by
  obtain ⟨hoff, hstop⟩ := State.report_emergency h hk
  have hinv := State.report_inv i r
  have hsettles := State.settle_settles (s.report r)
  obtain ⟨e, he, hkind, -, hbrakes⟩ := s.report_has r
  obtain ⟨e', he', hfollows⟩ := hsettles.old e he
  have hlaw : (s.report r).settle.FaultLaw :=
    State.faultLaw.keeps ((s.takeReports_keeps [r]).trans (State.settle_keeps _)) h
  have hkind' := hfollows.kind.trans hkind
  exact ⟨⟨e', he', hkind', (hlaw.emergency hk).2 e' he' hkind',
    BrakeSet.join_trans hbrakes hfollows.brakes⟩, (State.settle_grounds hinv hstop).lowers.allOff hoff,
    (State.settle_inv hinv).stop (hsettles.stopDemanded hstop)⟩

/-! ## The deadlines -/

theorem BrakeSet.join_service {a b : BrakeSet} (h : a.join b = b) (ha : a.service = true) :
    b.service = true := by
  rw [← h]
  exact Bool.or_eq_true_iff.2 (.inl ha)

theorem BrakeSet.join_emergency {a b : BrakeSet} (h : a.join b = b) (ha : a.emergency = true) :
    b.emergency = true := by
  rw [← h]
  exact Bool.or_eq_true_iff.2 (.inl ha)

/-- The brakes with the expired release deadlines idle (R145). -/
def State.releaseExpired (s : State) : State :=
  s.modBrk fun u =>
    { u with
      service := u.service.releaseExpired (s.dueBrakes .releasing).service
      emergency := u.emergency.releaseExpired (s.dueBrakes .releasing).emergency }

/-- The brakes with the expired apply deadlines idle and their apply-ended marks set (R146). -/
def State.applyExpired (s : State) : State :=
  s.modBrk fun u =>
    { u with
      service := u.service.applyExpired (s.dueBrakes .applying).service
      emergency := u.emergency.applyExpired (s.dueBrakes .applying).emergency }

theorem State.takeReleaseExpiry_due {s : State} (h : (s.dueBrakes .releasing).any = true) :
    s.takeReleaseExpiry = (s.releaseExpired.report
      { kind := .brakeReleaseTimeout, brakes := s.dueBrakes .releasing }).settle := if_pos h

theorem State.takeApplyExpiry_due {s : State} (h : (s.dueBrakes .applying).any = true) :
    s.takeApplyExpiry = (s.applyExpired.report
      { kind := .brakeApplyTimeout, brakes := s.dueBrakes .applying }).settle := if_pos h

/-- An apply deadline passes in APPLYING alone, so the marks keep their law (R141, R146). -/
theorem State.applyExpired_inv {s : State} (i : s.RunLaws) : s.applyExpired.RunLaws := by
  have hout (b : Brake) (due : Bool) : (b.applyExpired due).output = b.output := by
    cases due <;> rfl
  have hmark {b : Brake} {t : Nat} (hb : b.MarkLaw) : (b.applyExpired (b.dueIn .applying t)).MarkLaw := by
    unfold Brake.applyExpired
    split
    next h => exact fun _ => of_decide_eq_true (Bool.and_eq_true_iff.1 h).1
    next => exact hb
  refine (Calm.mk ⟨.inl rfl, ?_, ?_, fun h => ⟨hmark h.1, hmark h.2⟩⟩ rfl rfl rfl rfl : Calm s s.applyExpired).inv i
  · exact fun h => (hout _ _).symm.trans h
  · exact fun h => (hout _ _).symm.trans h

/-- Settles O26: each report names its brakes, and a demand for a stop holds until the event has settled. -/
theorem brakeDeadlinesReport : Obligations.BrakeDeadlinesReport := by
  refine ⟨fun dt s hheld hdue => ?_, fun dt s hheld i hlaw hdue => ?_⟩
  · have hsends := State.event_sends hheld dt State.takeReleaseExpiry
    have hinv (is : s.RunLaws) : (s.event dt State.takeReleaseExpiry).RunLaws :=
      State.event_inv is dt fun _ => State.takeReleaseExpiry_inv
    rw [State.takeReleaseExpiry_due hdue] at hsends
    obtain ⟨e, he, hkind, -, hbrakes⟩ := (s.advance dt).releaseExpired.report_has
      { kind := .brakeReleaseTimeout, brakes := (s.advance dt).dueBrakes .releasing }
    obtain ⟨e', he', hfollows⟩ := (State.settle_settles _).old e he
    have hjoin := BrakeSet.join_trans hbrakes hfollows.brakes
    rw [← hsends.faults] at he'
    exact ⟨_, rfl, e', he', hfollows.kind.trans hkind, BrakeSet.join_service hjoin,
      BrakeSet.join_emergency hjoin, fun is hrank => (hinv is).stop (mem_stopDemanded.2 ⟨e', he', hrank⟩)⟩
  · have hsends := State.event_sends hheld dt State.takeApplyExpiry
    rw [State.takeApplyExpiry_due hdue] at hsends
    have hadvance : (s.advance dt).RunLaws := State.RunLaws.same i rfl rfl rfl rfl
    obtain ⟨⟨e, he, hkind, hcls, hjoin⟩, ⟨henable, hserv, hemer⟩, hfault⟩ :=
      State.settle_emergency (r := { kind := .brakeApplyTimeout, brakes := (s.advance dt).dueBrakes .applying })
        (State.applyExpired_inv hadvance) hlaw ⟨rfl, rfl⟩
    refine ⟨_, rfl, ?_⟩
    rw [hsends.faults, hsends.brk, hsends.state]
    exact ⟨⟨e, he, hkind, hcls, BrakeSet.join_service hjoin, BrakeSet.join_emergency hjoin⟩, henable, hserv,
      hemer, hfault⟩

/-! ## The effectiveness checks -/

theorem BrakeSet.join_left (a b : BrakeSet) : a.join (a.join b) = a.join b := by
  simp only [BrakeSet.join, ← Bool.or_assoc, Bool.or_self]

theorem BrakeSet.join_right (a b : BrakeSet) : a.join (b.join a) = b.join a := by
  rcases a with ⟨_ | _, _ | _⟩ <;> rcases b with ⟨_ | _, _ | _⟩ <;> rfl

/-- The union of the brakes of some checks holds those of each. -/
theorem brakesOf_has {c : Check} {cs : List Check} (h : c ∈ cs) :
    c.brakes.join (brakesOf cs) = brakesOf cs := by
  have hgrows (cs : List Check) : ∀ b : BrakeSet,
      b.join (cs.foldl (fun b c => b.join c.brakes) b) = cs.foldl (fun b c => b.join c.brakes) b := by
    induction cs with
    | nil => exact fun b => BrakeSet.join_self b
    | cons x cs ih => exact fun b => BrakeSet.join_trans (BrakeSet.join_left b x.brakes) (ih _)
  have hmem (cs : List Check) (h : c ∈ cs) : ∀ b : BrakeSet,
      c.brakes.join (cs.foldl (fun b c => b.join c.brakes) b)
        = cs.foldl (fun b c => b.join c.brakes) b := by
    induction cs with
    | nil => cases h
    | cons x cs ih =>
      intro b
      rcases List.mem_cons.1 h with rfl | h
      · exact BrakeSet.join_trans (BrakeSet.join_right c.brakes b) (hgrows cs _)
      · exact ih h _
  exact hmem cs h _

/-- A failed check (R149, R154): the report names its brakes, every output is off, and the rail brake demand is
set where it included the emergency brake. -/
theorem State.failChecks_fails {s : State} {failed : List Check} {c : Check} (hc : c ∈ failed)
    (h : s.FaultLaw) :
    (∃ e ∈ (s.failChecks failed).faults, e.kind = .brakeIneffective
        ∧ (brakesOf failed).join e.brakes = e.brakes)
      ∧ (s.failChecks failed).AllOff ∧ (s.failChecks failed).stopDemanded = true
      ∧ (c.brakes.emergency = true → (s.failChecks failed).brk.rail = true) := by
  have hne : failed ≠ [] := List.ne_nil_of_mem hc
  obtain ⟨hoff, hstop⟩ := State.report_emergency (r := { kind := .brakeIneffective, brakes := brakesOf failed })
    h ⟨rfl, rfl⟩
  obtain ⟨e, he, hkind, -, hbrakes⟩ := s.report_has { kind := .brakeIneffective, brakes := brakesOf failed }
  unfold State.failChecks
  rw [if_neg hne]
  generalize s.report { kind := .brakeIneffective, brakes := brakesOf failed } = u at hoff hstop he
  have happly (b : Bool) : (if b = true then u.apply ⟨false, true⟩ else u).faults = u.faults
      ∧ (if b = true then u.apply ⟨false, true⟩ else u).AllOff := by
    cases b
    · exact ⟨rfl, hoff⟩
    · exact ⟨u.apply_faults _, (u.apply_lowers _).allOff hoff⟩
  simp only
  obtain ⟨hfaults, hoff'⟩ := happly (failed.any fun c => !c.brakes.emergency)
  generalize (if (failed.any fun c => !c.brakes.emergency) = true then u.apply ⟨false, true⟩ else u) = v
    at hfaults hoff'
  have hstop' : v.stopDemanded = true := by
    unfold State.stopDemanded
    rw [hfaults]
    exact hstop
  cases hrail : failed.any fun c => c.brakes.emergency with
  | true => exact ⟨⟨e, hfaults ▸ he, hkind, hbrakes⟩, hoff', hstop', fun _ => rfl⟩
  | false =>
    refine ⟨⟨e, hfaults ▸ he, hkind, hbrakes⟩, hoff', hstop', fun hemer => ?_⟩
    exact absurd hemer (Bool.eq_false_iff.1 (by simpa using List.any_eq_false.1 hrail c hc))

/-- The checks that have ended leave the list (R149). -/
def State.endChecks (s : State) (due : Check → Bool) : State :=
  s.modBrk fun u => { u with checks := u.checks.filter fun c => !due c }

theorem State.decideChecks_eq (s : State) (due : Check → Bool) :
    s.decideChecks due = (s.endChecks due).failChecks
      ((s.brk.checks.filter due).filter fun c => c.fails s.absV s.settings.aMin) := rfl

/-- Checks none of which fails end with no effect (R149). -/
theorem State.decideChecks_pass {s : State} {due : Check → Bool}
    (h : ∀ c ∈ s.brk.checks, due c = true → s.absV ≤ max 20 (c.v0 - s.settings.aMin)) :
    s.decideChecks due = s.endChecks due := by
  have hnone : ((s.brk.checks.filter due).filter fun c => c.fails s.absV s.settings.aMin) = [] := by
    refine List.filter_eq_nil_iff.2 fun c hc hfails => ?_
    obtain ⟨hmem, hdue⟩ := List.mem_filter.1 hc
    exact absurd (of_decide_eq_true hfails) (not_lt.2 (h c hmem hdue))
  rw [State.decideChecks_eq, hnone]
  exact if_pos rfl

/-- A run state in which the Run Controller has nothing to do while nothing changes. -/
def State.Idle (s : State) : Prop :=
  s.run.state = .parked ∨ s.run.state = .running ∨ s.run.state = .finalApproach
    ∨ s.run.state = .suspending ∨ s.run.state = .suspended
    ∨ (s.run.state = .faultHeld ∧ s.stopDemanded = true)
    ∨ (s.run.state = .faultStopping ∧ s.run.standstill = false
      ∧ (s.brk.enable = false ∨ s.brk.service.done = false ∨ s.brk.emergency.done = false)
      ∧ (s.run.stopClass = some .emergency ∨ s.run.stopClass = some .serviceStop
        ∨ (s.run.stopClass = some .quickStop ∧ s.settings.vCreep < s.absV)))

/-- FAULT_STOPPING while the rope moves, the class applies nothing, and DRIVE ENABLE is off or a brake is still
to be applied (R151 to R153). -/
theorem State.runFaultStopping_waits {s : State} (hc : s.classApplies = false)
    (hb : s.brk.enable = false ∨ s.brakesDone = false)
    (hh : s.run.standstill = false ∨ s.brakesDone = false) : s.runFaultStopping = s := by
  have h2 : ¬ (s.brakesDone = true ∧ s.brk.enable = true) := by
    rintro ⟨hdone, henable⟩
    obtain h | h := hb
    · exact Bool.false_ne_true (h.symm.trans henable)
    · exact Bool.false_ne_true (h.symm.trans hdone)
  have h3 : ¬ (s.run.standstill = true ∧ s.brakesDone = true ∧ s.brk.enable = false) := by
    rintro ⟨hstand, hdone, -⟩
    obtain h | h := hh
    · exact Bool.false_ne_true (h.symm.trans hstand)
    · exact Bool.false_ne_true (h.symm.trans hdone)
  unfold State.runFaultStopping
  simp only [hc, Bool.false_eq_true, if_false, if_neg h2, if_neg h3]

/-- The emergency class and a class whose bound is not reached apply nothing (R152 to R154). -/
theorem State.classApplies_not {s : State} (hs : s.run.standstill = false)
    (h : s.run.stopClass = some .emergency ∨ s.run.stopClass = some .serviceStop
      ∨ (s.run.stopClass = some .quickStop ∧ s.settings.vCreep < s.absV)) : s.classApplies = false := by
  unfold State.classApplies
  obtain h | h | ⟨h, hv⟩ := h <;> rw [h]
  · exact hs
  · exact decide_eq_false (not_le.2 hv)

theorem State.runStep_idle {s : State} (h : s.Idle) (hq : s.Quiet) : s.runStep = s := by
  rcases h with h | h | h | h | h | ⟨h, hd⟩ | ⟨h, hs, hb, hc⟩
  · exact State.runStep_parked h hq.2
  · exact State.runStep_moving (.inl h)
  · exact State.runStep_moving (.inr (.inl h))
  · exact State.runStep_moving (.inr (.inr (.inl h)))
  · exact State.runStep_moving (.inr (.inr (.inr h)))
  · exact State.runStep_faultHeld h hd
  · have hstep : s.runStep = s.runFaultStopping := by simp only [State.runStep, h]
    rw [hstep]
    refine State.runFaultStopping_waits (State.classApplies_not hs hc) ?_ (.inl hs)
    obtain hb | hb | hb := hb
    · exact .inl hb
    · exact .inr (by rw [State.brakesDone, hb]; rfl)
    · exact .inr (by rw [State.brakesDone, hb, Bool.and_false])

/-- Settles O27: by whether the sample of the expiry's moment is still to come, and whether a due check
fails. -/
theorem effectivenessCheckDecides : Obligations.EffectivenessCheckDecides := by
  intro dt s hheld stays
  refine ⟨fun c hc i hlaw hsample hdue hfast => ?_, fun hsample hpass hrest hq hstays => ?_,
    fun hsample hq => ?_⟩
  · have hsends := State.event_sends hheld dt State.expireChecks
    have hawaited : (s.advance dt).sampleAwaited = false := decide_eq_false (not_le.2 hsample)
    have hbody : (s.advance dt).expireChecks
        = ((s.advance dt).decideChecks fun c => decide (c.due ≤ (s.advance dt).time)).settle := by
      unfold State.expireChecks
      rw [hawaited, if_neg Bool.false_ne_true]
    have hadvance : (s.advance dt).RunLaws := State.RunLaws.same i rfl rfl rfl rfl
    have hinv : ((s.advance dt).decideChecks fun c => decide (c.due ≤ (s.advance dt).time)).RunLaws :=
      State.decideChecks_inv hadvance _
    have hlaw' : ((s.advance dt).decideChecks fun c => decide (c.due ≤ (s.advance dt).time)).settle.FaultLaw :=
      State.faultLaw.keeps ((State.decideChecks_keeps _ _).trans (State.settle_keeps _)) hlaw
    have hfailed : c ∈ (((s.advance dt).brk.checks.filter fun c => decide (c.due ≤ (s.advance dt).time)).filter
        fun c => c.fails (s.advance dt).absV (s.advance dt).settings.aMin) :=
      List.mem_filter.2 ⟨List.mem_filter.2 ⟨hc, decide_eq_true hdue⟩, decide_eq_true hfast⟩
    have hjoin := brakesOf_has hfailed
    obtain ⟨⟨e, he, hkind, hbrakes⟩, hoff, hstop, hrail⟩ := State.failChecks_fails
      (s := (s.advance dt).endChecks fun c => decide (c.due ≤ (s.advance dt).time)) hfailed hlaw
    rw [← State.decideChecks_eq] at he hoff hstop hrail
    rw [hbody] at hsends
    generalize ((s.advance dt).decideChecks fun c => decide (c.due ≤ (s.advance dt).time)) = u at *
    obtain ⟨e', he', hfollows⟩ := u.settle_settles.old e he
    have hgrounds := State.settle_grounds hinv hstop
    obtain ⟨henable, hserv, hemer⟩ := hgrounds.lowers.allOff hoff
    have hkind' := hfollows.kind.trans hkind
    have hnamed := BrakeSet.join_trans hjoin (BrakeSet.join_trans hbrakes hfollows.brakes)
    refine ⟨_, rfl, ?_⟩
    rw [hsends.faults, hsends.brk, hgrounds.rail]
    exact ⟨⟨e', he', hkind', (hlaw'.emergency (k := .brakeIneffective) ⟨rfl, rfl⟩).2 e' he' hkind',
      BrakeSet.join_service hnamed, BrakeSet.join_emergency hnamed⟩, henable, hserv, hemer, hrail⟩
  · have hawaited : (s.advance dt).sampleAwaited = false := decide_eq_false (not_le.2 hsample)
    have hended : ((s.advance dt).endChecks fun c => decide (c.due ≤ s.time + dt)).AtRest :=
      (hrest.advance dt).like rfl rfl rfl rfl
    have hidle : ((s.advance dt).endChecks fun c => decide (c.due ≤ s.time + dt)).runStep
        = (s.advance dt).endChecks fun c => decide (c.due ≤ s.time + dt) := State.runStep_idle hstays hq
    have hfilter : (fun c : Check => !decide (c.due ≤ s.time + dt))
        = fun c => decide (s.time + dt < c.due) := by
      funext c
      rw [← decide_not]
      exact decide_eq_decide.2 not_le
    have hbody : (s.advance dt).expireChecks
        = (s.advance dt).endChecks fun c => decide (c.due ≤ s.time + dt) := by
      unfold State.expireChecks
      rw [hawaited, if_neg Bool.false_ne_true]
      have hpass' := State.decideChecks_pass (s := s.advance dt) (due := fun c => decide (c.due ≤ s.time + dt))
        fun c hc hdue => hpass c hc (of_decide_eq_true hdue)
      exact (congrArg State.settle hpass').trans (hended.settle hidle)
    unfold State.endChecks at hbody
    rw [hfilter] at hbody
    exact congrArg _ (State.event_same hheld dt hbody hq ⟨rfl, rfl, rfl, fun _ => rfl⟩)
  · have hawaited : (s.advance dt).sampleAwaited = true := decide_eq_true hsample
    have hbody : (s.advance dt).expireChecks = (s.advance dt).modBrk fun u =>
        { u with
          checks := u.checks.map fun c => { c with elapsed := c.elapsed || decide (c.due ≤ s.time + dt) } } := by
      unfold State.expireChecks
      rw [hawaited]
      rfl
    exact congrArg _ (State.event_same hheld dt hbody hq ⟨rfl, rfl, rfl, fun _ => rfl⟩)

/-! ## The quick-stop timer -/

theorem State.takeQuickStop_due {s : State} {d : Nat} (hd : s.brk.quickDue = some d) (hdue : d ≤ s.time) :
    s.takeQuickStop = s.classApply.settle := by
  have hnow : isDue s.brk.quickDue s.time = true := by
    rw [hd]
    exact decide_eq_true hdue
  exact if_pos hnow

/-- The apply of a stop class changes the brakes alone (R143, R148). -/
theorem State.classApply_eq (s : State) : s.classApply = { s with brk := s.classApply.brk } := by
  unfold State.classApply
  rw [State.apply_eq]
  rfl

/-- A released brake that is open goes to APPLYING, and its application is not over (R141, R143). -/
theorem Brake.apply_released {b : Brake} (h : b.state = .released) (hm : b.MarkLaw) (now deadline : Nat) :
    (b.apply now deadline true).state = .applying ∧ (b.apply now deadline true).done = false := by
  have hended : b.ended = false := Bool.eq_false_iff.2 fun he => by
    have := hm he
    rw [h] at this
    cases this
  rcases b with ⟨st, due, ended⟩
  subst h hended
  exact ⟨rfl, rfl⟩

/-- An APPLY of two released brakes above creep speed, with no check running, starts one for both (R148). -/
theorem State.classApply_checks {s : State} (hs : s.brk.service.state = .released)
    (he : s.brk.emergency.state = .released) (hc : s.brk.checks = [])
    (hfast : s.settings.vCreep < s.absV) :
    s.classApply.brk.checks = [⟨⟨true, true⟩, s.absV, s.time + ms 1000, false⟩] := by
  have houtput {b : Brake} (h : b.state = .released) : b.output = true := by
    rw [Brake.output, h]
  have hstart (u : State) (hu : u.brk.checks = []) (hfast : u.settings.vCreep < u.absV) :
      (u.startCheck ⟨true, true⟩).brk.checks = [⟨⟨true, true⟩, u.absV, u.time + ms 1000, false⟩] := by
    have hnone : u.brk.checked = ⟨false, false⟩ := by
      rw [BrakeUnit.checked, hu]
      rfl
    have hfires : u.absV > u.settings.vCreep
        ∧ (⟨true && !false, true && !false⟩ : BrakeSet).any = true := ⟨hfast, rfl⟩
    unfold State.startCheck
    simp only [hnone]
    rw [if_pos hfires]
    show u.brk.checks ++ _ = _
    rw [hu]
    rfl
  unfold State.classApply State.apply
  rw [houtput hs, houtput he]
  exact hstart _ hc hfast

/-- Settles O28: the apply takes both release outputs off, and nothing energises them while the stop is
demanded. -/
theorem quickStopTimerApplies : Obligations.QuickStopTimerApplies := by
  intro dt d s hheld i hstop hd hdue
  have hsends := State.event_sends hheld dt State.takeQuickStop
  rw [State.takeQuickStop_due (s := s.advance dt) hd hdue] at hsends
  have hadvance : (s.advance dt).RunLaws := State.RunLaws.same i rfl rfl rfl rfl
  have hcalm := (s.advance dt).classApply_calm
  have hgrounds := State.settle_grounds (hcalm.inv hadvance) (hcalm.stop.trans hstop)
  obtain ⟨hserv, hemer⟩ := (s.advance dt).apply_both_off
  refine ⟨_, rfl, ?_⟩
  rw [hsends.brk, hsends.state]
  refine ⟨Bool.eq_false_iff.2 fun h => Bool.eq_false_iff.1 hserv (hgrounds.lowers.service h),
    Bool.eq_false_iff.2 fun h => Bool.eq_false_iff.1 hemer (hgrounds.lowers.emergency h),
    fun hrest hs he hc hst hcls hfast hso heo hen => ?_⟩
  have hservice : (s.advance dt).classApply.brk.service
      = s.brk.service.apply (s.time + dt) s.applyDeadline true := by
    have h := (s.advance dt).apply_service .both
    have hopen : (s.advance dt).serviceOpen = true := hso
    rw [hopen] at h
    exact h
  have hemergency : (s.advance dt).classApply.brk.emergency
      = s.brk.emergency.apply (s.time + dt) s.applyDeadline true := by
    have h := (s.advance dt).apply_emergency .both
    have hopen : (s.advance dt).emergencyOpen = true := heo
    rw [hopen] at h
    exact h
  obtain ⟨hsstate, hsdone⟩ := Brake.apply_released hs i.marks.1 (s.time + dt) s.applyDeadline
  obtain ⟨hestate, -⟩ := Brake.apply_released he i.marks.2 (s.time + dt) s.applyDeadline
  have hchecks := State.classApply_checks (s := s.advance dt) hs he hc hfast
  have hquick : (s.advance dt).classApply.brk.quickDue = none := rfl
  have henable : (s.advance dt).classApply.brk.enable = true := ((s.advance dt).apply_enable .both).trans hen
  have happlied := State.classApply_eq (s.advance dt)
  generalize (s.advance dt).classApply = u at *
  have hrest' : u.AtRest := by
    rw [happlied]
    exact (hrest.advance dt).like rfl rfl rfl rfl
  have hrun : u.run = s.run := by rw [happlied]; rfl
  have hstep : u.runStep = u := by
    have hstep : u.runStep = u.runFaultStopping := by simp only [State.runStep, hrun, hst]
    have hwaits : u.brakesDone = false := by rw [State.brakesDone, hservice, hsdone]; rfl
    have hnot : u.classApplies = false := by
      have hslow : decide (u.absV ≤ u.settings.vCreep) = false := by
        rw [happlied]
        exact decide_eq_false (not_le.2 hfast)
      unfold State.classApplies
      rw [hrun, hcls]
      exact hslow
    rw [hstep]
    exact State.runFaultStopping_waits hnot (.inr hwaits) (.inr hwaits)
  rw [hrest'.settle hstep, hservice, hemergency, hrun]
  exact ⟨hquick, henable, hchecks, hsstate, hestate, hst⟩

end Sys2Proof.Machine
end

section
/-!
The links: receivers, frames that the Link Unit answers alone, and transmitters.  Each of these events changes
one link and nothing else.
-/

namespace Sys2Proof.Machine

open Sys2Proof

set_option Elab.async false

/-! ## An event that changes one link -/

/-- The state `dt` µs on, with a party's link replaced. -/
def State.relinked (s : State) (dt : Nat) (p : Party) (l : Link) : State :=
  { s with time := s.time + dt, links := s.links.set p l }

/-- A link change that keeps the link's state changes no trigger field of a command message (R187). -/
theorem State.relinked_same (s : State) (dt : Nat) {p : Party} {l : Link} (h : l.up = (s.link p).up) :
    SameTriggers (s.advance dt) (s.relinked dt p l) where
  run := rfl
  rail := rfl
  active := rfl
  up q := by
    cases p <;> cases q <;> first | rfl | exact h

/-- An event whose body replaces one link, UP or LOST as it was, ends with that. -/
theorem State.event_relinked {s : State} (hr : s.Ready) {dt : Nat} {p : Party} {l : Link}
    {body : State → State} (hb : body (s.advance dt) = s.relinked dt p l)
    (hu : l.up = (s.link p).up := by rfl) : s.event dt body = s.relinked dt p l :=
  State.event_same hr.1 dt hb hr.2 (s.relinked_same dt hu)

/-- An event whose body leaves the state moves the clock alone. -/
theorem State.event_still {s : State} (hr : s.Ready) {dt : Nat} {body : State → State}
    (hb : body (s.advance dt) = s.advance dt) : s.event dt body = { s with time := s.time + dt } :=
  State.event_same hr.1 dt hb hr.2 ⟨rfl, rfl, rfl, fun _ => rfl⟩

/-! ## The receiver -/

/-- A receiver that has taken no character of a frame stands at no character (R177). -/
theorem State.Listens.setRx {s : State} {p : Party} (h : s.Listens p) : s.setRx p (.inFrame []) = s :=
  State.setRx_same h.1

/-- The TYPE of a frame is taken at its position (R177). -/
theorem State.takeChar_type {s : State} {p : Party} (h : s.Listens p) (type : Byte) :
    s.takeChar p type = s.setRx p (.inFrame [type]) := by
  have htake := State.takeChar_inFrame h.2 [] type
  rw [h.setRx] at htake
  exact htake

/-- A LEN up to 192 is taken at its position (R177). -/
theorem State.takeChar_len {s : State} {p : Party} (h : s.Listens p) (type : Byte) {len : Byte}
    (hl : len.toNat ≤ 192) :
    (s.setRx p (.inFrame [type])).takeChar p len = s.setRx p (.inFrame [type, len]) := by
  rw [State.takeChar_inFrame h.2]
  simp only [List.cons_append, List.nil_append, Receiver.follow, if_neg (Nat.not_lt.mpr hl),
    List.length_nil, Nat.zero_lt_succ, if_true]

/-- A LEN above 192 discards the frame (R177). -/
theorem State.takeChars_long {s : State} {p : Party} (h : s.Listens p) (type : Byte) {len : Byte}
    (hl : 192 < len.toNat) : s.takeChars p [type, len] = s.setRx p .hunt := by
  show (s.takeChar p type).takeChar p len = _
  rw [State.takeChar_type h, State.takeChar_inFrame h.2]
  simp only [List.cons_append, List.nil_append, Receiver.follow, if_pos hl]

/-- The first characters of a frame are each taken at their positions (R177). -/
theorem State.takeChars_take {s : State} {p : Party} (h : s.Listens p) (type : Byte) {pl : List Byte}
    (hp : pl.length ≤ 192) (crc : BitVec 16) {n : Nat} (hn : n < (frameChars type pl crc).length) :
    s.takeChars p ((frameChars type pl crc).take n) = s.setRx p (.inFrame ((frameChars type pl crc).take n)) := by
  have hlen : (BitVec.ofNat 8 pl.length).toNat = pl.length := by
    simp only [BitVec.toNat_ofNat]
    omega
  match n with
  | 0 => exact h.setRx.symm
  | 1 => exact State.takeChar_type h type
  | n + 2 =>
    have hrest := State.takeChars_partial h.2 type (BitVec.ofNat 8 pl.length) (by omega)
      ((pl ++ [crc.extractLsb' 8 8, crc.extractLsb' 0 8]).take n) [] (by
        simp only [frameChars, List.length_cons, List.length_append, List.length_nil] at hn
        simp only [List.length_take, List.length_nil, hlen]
        omega)
    show ((s.takeChar p type).takeChar p _).takeChars p _ = _
    rw [State.takeChar_type h, State.takeChar_len h type (by omega), hrest]
    rfl

/-- A 0x5A in HUNT starts a frame (R177). -/
theorem State.takeChars_sync {s : State} {p : Party} (h : (s.link p).rx = .hunt)
    (hb : (s.link p).blocked = false) : s.takeChars p [0x5A] = s.setRx p (.inFrame []) := by
  show s.takeChar p 0x5A = _
  simp only [State.takeChar, hb, h, Receiver.take, Bool.false_eq_true, if_false, if_true]

/-- Settles O30: each case is the receiver's own, and the event adds only the time. -/
theorem charactersMoveReceiver : Obligations.CharactersMoveReceiver := by
  intro dt p s hr received
  have hmoves {body : State → State} (rx : Receiver)
      (hb : body (s.advance dt) = (s.advance dt).setRx p rx) :
      Host.Outcome.next (s.event dt body) = (.next (received rx) : Host.Outcome State Fault Refusal) :=
    congrArg _ (State.event_relinked hr hb)
  have hstays {body : State → State} (hb : body (s.advance dt) = s.advance dt) :
      Host.Outcome.next (s.event dt body)
        = (.next { s with time := s.time + dt } : Host.Outcome State Fault Refusal) :=
    congrArg _ (State.event_still hr hb)
  refine ⟨fun hhunt hb => hmoves _ (State.takeChars_sync (s := s.advance dt) hhunt hb),
    fun hb => hstays (State.takeChars_blocked (s := s.advance dt) hb _),
    fun type pl crc n hl hp hn => State.takeChars_take (s := s.advance dt) hl type hp crc hn,
    fun type len hl hlen => hmoves _ (State.takeChars_long (s := s.advance dt) hl type hlen),
    fun type len hhunt ht hlen => hstays (State.takeChars_hunt (s := s.advance dt) hhunt ?_),
    fun type pl crc hhunt hnot => hstays (State.takeChars_hunt (s := s.advance dt) hhunt hnot),
    hmoves _ rfl, hmoves _ rfl⟩
  intro hmem
  rcases List.mem_cons.1 hmem with h | h
  · exact ht h.symm
  · exact hlen (List.mem_singleton.1 h).symm

/-! ## Frames of the Link Unit -/

theorem MsgType.code_of_ofCode {type : Byte} {t : MsgType} (h : MsgType.ofCode type = some t) :
    t.code = type := by
  simpa using List.find?_some h

/-- A type that no message has is none of them (10.6). -/
theorem MsgType.ofCode_unknown {type : Byte} (h : ∀ t : MsgType, t.code ≠ type) :
    MsgType.ofCode type = none := by
  cases ht : MsgType.ofCode type with
  | none => rfl
  | some t => exact absurd (MsgType.code_of_ofCode ht) (h t)

/-- Settles O31: a bad CRC leaves the receiver in HUNT, and the others are answered alone. -/
theorem linkUnitRefusesFrames : Obligations.LinkUnitRefusesFrames := by
  intro dt p type payload s hr hp
  refine ⟨fun crc hl hc => ?_, fun hh hunknown => ?_, fun hh t hcode hperm => ?_⟩
  · have hcrc : crc ≠ Frame.crc ⟨type, payload⟩ := hc
    exact congrArg _ (State.event_relinked hr (State.hearChecked_bad (s := s.advance dt) hl type hp hcrc))
  · refine congrArg _ (State.event_answered hr hh dt type hp ?_)
    unfold State.takeFrame
    rw [MsgType.ofCode_unknown hunknown]
  · refine congrArg _ (State.event_answered hr hh dt type hp ?_)
    subst hcode
    unfold State.takeFrame
    rw [MsgType.ofCode_code]
    simp only [hperm, Bool.not_false, if_true]

/-- Settles O32: each of these commands comes as characters, of which a blocked receiver takes none. -/
theorem fullTransmitterTakesNoFrame : Obligations.FullTransmitterTakesNoFrame := by
  intro dt payload s hr
  have hstays {p : Party} (hb : (s.link p).blocked = true) (bs : List Byte) :
      Host.Outcome.next (s.event dt (State.takeChars p bs))
        = (.next { s with time := s.time + dt } : Host.Outcome State Fault Refusal) :=
    congrArg _ (State.event_still hr (State.takeChars_blocked (s := s.advance dt) hb bs))
  refine ⟨fun hb c hc => ?_, fun k hb => ?_, fun hb => ?_, fun hb => ?_, fun p hb type crc c hc => ?_⟩
  · simp only [List.mem_cons, List.not_mem_nil, or_false] at hc
    rcases hc with rfl | rfl | rfl | rfl | rfl | rfl | rfl | rfl | rfl | rfl | rfl | rfl | rfl | rfl | rfl
      | rfl | rfl | rfl | rfl <;> exact hstays hb _
  · exact hstays hb _
  · exact hstays hb _
  · exact hstays hb _
  · simp only [List.mem_cons, List.not_mem_nil, or_false] at hc
    rcases hc with rfl | rfl | rfl | rfl <;> exact hstays hb _

/-! ## Transmitters -/

/-- A message takes the place of the first waiting frame of its type, and the later ones leave (R181). -/
theorem replaceWaiting_append {t : Byte} {new pre : List Frame} (hpre : ∀ f ∈ pre, f.type ≠ t)
    {old : Frame} (hold : old.type = t) (post : List Frame) :
    replaceWaiting t new (pre ++ old :: post)
      = pre ++ (new ++ post.filter fun g => decide (g.type ≠ t)) := by
  induction pre with
  | nil => exact if_pos hold
  | cons f pre ih =>
    rw [List.cons_append, replaceWaiting, if_neg (hpre f List.mem_cons_self),
      ih fun g hg => hpre g (List.mem_cons_of_mem _ hg)]
    rfl

/-- A busy transmitter takes a REPLY, or a message none of whose type waits, at the tail (R181). -/
theorem Link.hand_tail {l : Link} {g : Frame} (h : l.sending = some g) {t : MsgType}
    (ht : t = .reply ∨ ∀ f ∈ l.waiting, f.type ≠ t.code) (fs : List Frame) :
    l.hand t fs = { l with waiting := l.waiting ++ fs } := by
  have hnot : ¬ (t ≠ .reply ∧ l.waiting.any (fun f => decide (f.type = t.code)) = true) := by
    rintro ⟨hr, hany⟩
    obtain ⟨f, hf, hcode⟩ := List.any_eq_true.1 hany
    exact ht.elim hr fun hnone => hnone f hf (of_decide_eq_true hcode)
  unfold Link.hand
  rw [h]
  exact if_neg hnot

/-- A busy transmitter with a frame of the message's type waiting replaces it (R181). -/
theorem Link.hand_replaces {l : Link} {g : Frame} (h : l.sending = some g) {t : MsgType} (hr : t ≠ .reply)
    {f : Frame} (hf : f ∈ l.waiting) (hcode : f.type = t.code) (fs : List Frame) :
    l.hand t fs = { l with waiting := replaceWaiting t.code fs l.waiting } := by
  have hany : t ≠ .reply ∧ l.waiting.any (fun f => decide (f.type = t.code)) = true :=
    ⟨hr, List.any_eq_true.2 ⟨f, hf, decide_eq_true hcode⟩⟩
  unfold Link.hand
  rw [h]
  exact if_pos hany

/-- Settles O33: by whether a frame is in sending, and whether one of the message's type waits. -/
theorem transmitterKeepsOrder : Obligations.TransmitterKeepsOrder := by
  refine ⟨fun dt p s hr => ⟨fun f hf => ?_, fun hidle => ?_⟩, fun l t f more => ⟨fun hidle => ?_,
    fun g hg => ⟨Link.hand_tail hg (.inl rfl) _, fun hnone => Link.hand_tail hg (.inr hnone) _,
      fun pre old post ht hw hold hpre => ?_⟩⟩⟩
  · have hsent : (s.link p).transmitted
        = { s.link p with sending := (s.link p).waiting.head?, waiting := (s.link p).waiting.tail } := by
      rw [Link.transmitted, hf]
    refine congrArg _ (State.event_relinked hr ?_)
    rw [← hsent]
    rfl
  · have hsame : (s.link p).transmitted = s.link p := by rw [Link.transmitted, hidle]
    refine congrArg _ (State.event_still hr ?_)
    show (s.advance dt).modLink p Link.transmitted = _
    have hlinks : s.links.set p (s.link p).transmitted = s.links := by
      rw [hsame]
      exact PerParty.set_get _ _
    exact congrArg (fun ls : PerParty Link => ({ s.advance dt with links := ls } : State)) hlinks
  · unfold Link.hand
    rw [hidle]
    rfl
  · have hmem : old ∈ l.waiting := by
      rw [hw]
      exact List.mem_append_right _ List.mem_cons_self
    rw [Link.hand_replaces hg ht hmem hold, hw, replaceWaiting_append hpre hold]
    rfl

/-! ## The command messages of the periods -/

/-- The message of a car's period is sent, and its timer runs again (R187). -/
theorem State.event_period {s t : State} (hr : s.Ready) {dt : Nat} {body : State → State}
    (hb : body (s.advance dt) = t) (hrun : t.run = s.run) (hbrk : t.brk = s.brk) (hstore : t.store = s.store)
    (hup : ∀ p, t.linkUp p = s.linkUp p) : s.event dt body = t :=
  State.event_same hr.1 dt hb (by unfold State.Quiet; rw [hrun]; exact hr.2)
    ⟨hrun, by rw [hbrk]; rfl, by rw [hstore]; rfl, hup⟩

/-- Handing a message to a transmitter loses no link (R181). -/
theorem State.send_up (s : State) (p q : Party) (t : MsgType) (pls : List (List Byte)) :
    (s.send p t pls).linkUp q = s.linkUp q := by
  cases p <;> cases q <;> first | rfl | exact Link.hand_up _ _ _

/-- Settles O35: the message is formed and sent, and the command fields have not changed. -/
theorem periodsSendCommands : Obligations.PeriodsSendCommands := by
  intro dt s hr
  refine ⟨fun k hdue => ?_, fun hdue => ?_⟩
  · have hbody : State.takeCarPeriod k (s.advance dt) = (s.advance dt).sendCar k := if_pos hdue
    exact congrArg _ (State.event_period hr hbody rfl rfl rfl fun p => State.send_up _ _ p _ _)
  · have hbody : (s.advance dt).takeLoopPeriod = (s.advance dt).sendLoop := if_pos hdue
    exact congrArg _ (State.event_period hr hbody rfl rfl rfl fun p => State.send_up _ _ p _ _)

/-! ## Frames of the wrong length -/

/-- A state message of the wrong length leaves its link as traffic does (R179). -/
theorem State.event_discarded {s : State} (hr : s.Ready) {dt : Nat} {p : Party} (hh : s.Hears p)
    {t : MsgType} {pl : List Byte} (hp : pl.length ≤ 192) (hperm : t.permitted p = true)
    (hstate : t.isState = true) (hl : t.lengthOk pl = false) :
    s.event dt (State.hear p t.code pl) = s.relinked dt p (s.heardLink dt p) := by
  refine State.event_relinked hr ?_
  rw [State.hear_hears (s := s.advance dt) hh t.code hp]
  have hframe (u : State) : u.takeFrame p t.code pl = u := by
    unfold State.takeFrame State.takeMessage
    simp only [MsgType.ofCode_code, hperm, hstate, hl, Bool.not_true, Bool.false_eq_true, if_false, if_true]
  rw [hframe]
  rfl

/-- A request of the wrong length is refused by the Link Unit (R179). -/
theorem State.event_misfit {s : State} (hr : s.Ready) (dt : Nat) {p : Party} (hh : s.Hears p)
    {t : MsgType} {pl : List Byte} (hp : pl.length ≤ 192) (hperm : t.permitted p = true)
    (hstate : t.isState = false) (hl : t.lengthOk pl = false) :
    s.event dt (State.hear p t.code pl) = s.answered dt p t.code (tagOf pl) { code := .badValue } := by
  refine State.event_answered hr hh dt t.code hp ?_
  unfold State.takeFrame
  simp only [MsgType.ofCode_code, hperm, hstate, hl, Bool.not_true, Bool.not_false, Bool.false_eq_true,
    if_false, if_true]

/-- Settles O37: a wrong length fails the Link Unit's check before the delivery. -/
theorem wrongLengthIsNotDelivered : Obligations.WrongLengthIsNotDelivered := by
  intro dt pl s hr hp
  refine ⟨fun k hh hl => ?_, fun hh hl => ?_, fun hh hl => ?_, fun p hperm hh hl => ?_,
    fun hh x hx hl => ?_, fun hh hl => ?_⟩
  · have hperm : MsgType.carState.permitted k.party = true := by cases k <;> rfl
    exact congrArg _ (State.event_discarded hr hh hp hperm rfl (decide_eq_false hl))
  · exact congrArg _ (State.event_discarded hr hh hp (t := .loopState) rfl rfl (decide_eq_false hl))
  · exact congrArg _ (State.event_discarded hr hh hp (t := .driveState) rfl rfl (decide_eq_false hl))
  · exact congrArg _ (State.event_misfit hr dt hh hp hperm rfl (decide_eq_false hl))
  · have hrefused (t : MsgType) (hperm : t.permitted .console = true) (hlen : t.lengthOk pl = false) :=
      congrArg (Host.Outcome.next (φ := Fault) (ρ := Refusal))
        (State.event_misfit hr dt hh hp hperm (MsgType.isState_of_permitted hperm) hlen)
    simp only [List.mem_cons, List.not_mem_nil, or_false] at hx
    rcases hx with rfl | rfl | rfl | rfl | rfl | rfl | rfl | rfl | rfl | rfl | rfl | rfl | rfl | rfl | rfl
      | rfl | rfl | rfl <;> exact hrefused _ rfl (decide_eq_false hl)
  · refine congrArg _ (State.event_misfit hr dt hh hp (t := .writeItem) rfl rfl ?_)
    unfold MsgType.lengthOk
    simp only
    split
    next item hitem => simp only [decide_eq_false (hl item hitem), Bool.and_false]
    next => rfl

end Sys2Proof.Machine
end

section
/-!
What the part reports and what it is told: the STATUS, the state messages and the loss of a link.
-/

namespace Sys2Proof.Machine

open Sys2Proof

set_option Elab.async false

/-! ## The lengths of the STATUS -/

@[simp] theorem putU16_length (n : Nat) : (putU16 n).length = 2 := rfl
@[simp] theorem putI16_length (x : Int) : (putI16 x).length = 2 := rfl
@[simp] theorem putW32_length (w : BitVec 32) : (putW32 w).length = 4 := rfl
@[simp] theorem putBool_length (b : Bool) : (putBool b).length = 1 := rfl

@[simp] theorem putI32_length (x : Int) : (putI32 x).length = 4 := by
  unfold putI32
  split <;> rfl

@[simp] theorem runBytes_length (r : Option RunRecord) : (runBytes r).length = 5 := by
  cases r <;> rfl

@[simp] theorem targetBytes_length (t : Option HeldTarget) : (targetBytes t).length = 11 := by
  cases t with
  | none => rfl
  | some t => simp [targetBytes]

@[simp] theorem Entry.bytes_length (e : Entry) : e.bytes.length = 4 := rfl

@[simp] theorem FaultEntry.bytes_length (e : FaultEntry) : e.bytes.length = 7 := rfl

@[simp] theorem CarRecord.bytes_length (r : CarRecord) : r.bytes.length = 4 := rfl

@[simp] theorem State.sampleBytes_length (s : State) : s.sampleBytes.length = 22 := by
  simp [State.sampleBytes]

@[simp] theorem State.recordBytes_length (s : State) : s.recordBytes.length = 18 := by
  simp [State.recordBytes]

/-- A list of items of one length. -/
theorem flatMap_length_const {α β : Type} {f : α → List β} {n : Nat} (h : ∀ a, (f a).length = n)
    (l : List α) : (l.flatMap f).length = n * l.length := by
  induction l with
  | nil => rfl
  | cons a l ih =>
    rw [List.flatMap_cons, List.length_append, h, ih, List.length_cons, Nat.mul_succ, Nat.add_comm]

theorem State.statusPart1_length (s : State) :
    s.statusPart1.length = 63 + 4 * s.queue.length + 2 * s.carriedSlots.length := by
  have hslots : (s.carriedSlots.flatMap fun i => BitVec.ofNat 8 i :: putBool (s.out i)).length
      = 2 * s.carriedSlots.length := flatMap_length_const (n := 2) (fun _ => rfl) _
  have hqueue : (s.queue.flatMap Entry.bytes).length = 4 * s.queue.length :=
    flatMap_length_const Entry.bytes_length _
  simp only [State.statusPart1, List.length_append, List.length_cons, List.length_nil, hslots, hqueue,
    runBytes_length, putU16_length, State.sampleBytes_length, State.recordBytes_length, targetBytes_length]
  omega

theorem State.statusPart2_length (s : State) :
    s.statusPart2.length = 2 + 7 * s.faults.length := by
  have hfaults : (s.faults.flatMap FaultEntry.bytes).length = 7 * s.faults.length :=
    flatMap_length_const FaultEntry.bytes_length _
  simp only [State.statusPart2, List.length_append, List.length_cons, List.length_nil, hfaults]

/-- The Active Fault Set holds at most one entry of each of the 27 kinds (R158, R162). -/
theorem State.FaultLaw.length_le {s : State} (h : s.FaultLaw) : s.faults.length ≤ 27 := by
  obtain ⟨-, hordered, -⟩ := h
  have hnodup : (s.faults.map fun e => e.kind.code).Nodup :=
    List.Pairwise.map _ (fun _ _ h => Nat.ne_of_lt h) hordered
  have hsub : (s.faults.map fun e => e.kind.code) ⊆ List.range' 1 27 := by
    intro c hc
    obtain ⟨e, -, rfl⟩ := List.mem_map.1 hc
    have hbounds := FaultKind.code_bounds e.kind
    exact List.mem_range'_1.2 (by omega)
  simpa using (hnodup.subperm hsub).length_le

/-! ## The STATUS -/

/-- Settles O34: the STATUS is formed from the state at the expiry, and what it marks changes no command. -/
theorem statusReportsState : Obligations.StatusReportsState := by
  intro dt s
  refine ⟨fun hr hdue => ?_, s.statusPart1_length, s.statusPart2_length, fun hq hf => ?_⟩
  · have hcarried : (s.slots.zipIdx.map fun (sl, i) => if s.carried i then { sl with flag := false } else sl)
        = s.slots.zipIdx.map fun (sl, i) =>
            if sl.flag = true ∧ (s.store.active.filter i).report = true then { sl with flag := false }
            else sl := by
      refine List.map_congr_left fun x hx => ?_
      obtain ⟨sl, i⟩ := x
      have hget : s.slots.getD i Slot.afterReset = sl := by
        rw [List.getD_eq_getElem?_getD, List.mem_zipIdx_iff_getElem?.1 hx]
        rfl
      simp only [State.carried, hget, Bool.and_eq_true]
    have hbody : (s.advance dt).takeStatusTimer
        = { (s.advance dt).sendStatus with
            periods := { (s.advance dt).periods with status := (s.advance dt).time + period } } := if_pos hdue
    refine congrArg _ ((State.event_period hr hbody rfl rfl rfl fun p => State.send_up _ _ p _ _).trans ?_)
    rw [← hcarried]
    rfl
  · have hlength := hf.length_le
    have hqueue := hq.1
    have hslots : s.carriedSlots.length ≤ 14 :=
      (List.length_filter_le _ _).trans (List.length_range).le
    rw [s.statusPart1_length, s.statusPart2_length]
    omega

/-! ## State messages -/

/-- Whatever its link's state, a good frame leaves the link UP with its timer run from now, and records and
store as they were (R182, R183). -/
theorem State.traffic_link (s : State) (p : Party) :
    (s.traffic p).recs = s.recs ∧ (s.traffic p).store = s.store ∧ ((s.traffic p).link p).up = true
      ∧ ((s.traffic p).link p).due = some (s.time + s.timeout p) := by
  unfold State.traffic
  simp only
  split
  next hup => exact ⟨rfl, rfl, by cases p <;> exact hup, by cases p <;> rfl⟩
  next =>
    have hreturned (u : State) (hr : u.recs = s.recs) (hs : u.store = s.store)
        (hl : u.link p = { s.link p with up := true, due := some (s.time + s.timeout p) }) :
        u.settle.recs = s.recs ∧ u.settle.store = s.store ∧ (u.settle.link p).up = true
          ∧ (u.settle.link p).due = some (s.time + s.timeout p) := by
      have ho := u.settle_settles.outer
      have hlink : u.settle.link p = { s.link p with up := true, due := some (s.time + s.timeout p) } := by
        rw [State.link, ho.links]
        exact hl
      rw [hlink]
      exact ⟨ho.recs.trans hr, ho.store.trans hs, rfl, rfl⟩
    unfold State.returnLink
    simp only
    split
    all_goals exact hreturned _ rfl rfl (by cases p <;> rfl)

/-- A state message of the right length is taken after it has counted as traffic (R179, R182). -/
theorem State.event_message {s : State} (hheld : s.held = false) (dt : Nat) {p : Party} (hl : s.Listens p)
    {t : MsgType} {pl : List Byte} (hp : pl.length ≤ 192) (hperm : t.permitted p = true)
    (hstate : t.isState = true) :
    ∃ u : State, Sends (u.takeMessage p t pl) (s.event dt (State.hear p t.code pl))
      ∧ u.recs = s.recs ∧ u.store = s.store ∧ (u.link p).up = true
      ∧ (u.link p).due = some (s.time + dt + s.timeout p) := by
  have hsends := State.event_sends hheld dt (State.hear p t.code pl)
  have hframe (u : State) : u.takeFrame p t.code pl = u.takeMessage p t pl := by
    unfold State.takeFrame
    simp only [MsgType.ofCode_code, hperm, hstate, Bool.not_true, Bool.false_eq_true, if_false, if_true]
  rw [State.hear_listens (s := s.advance dt) hl t.code hp, State.goodFrame, hframe] at hsends
  exact ⟨_, hsends, ((s.advance dt).setRx p .hunt).traffic_link p⟩

/-- What a state message leaves: its record as reported, and everything else that a settling event leaves. -/
theorem Sends.message {u t : State} {recs : Records} (h : Sends ({ u with recs := recs } : State).settle t)
    (p : Party) : t.recs = recs ∧ (t.link p).up = (u.link p).up ∧ (t.link p).due = (u.link p).due
      ∧ t.store = u.store := by
  have ho := ({ u with recs := recs } : State).settle_settles.outer
  have hlink : ({ u with recs := recs } : State).settle.link p = u.link p := by
    rw [State.link, ho.links]
    rfl
  obtain ⟨hup, hdue, -⟩ := h.links p
  rw [hlink] at hup hdue
  exact ⟨h.recs.trans ho.recs, hup, hdue, h.store.trans ho.store⟩

theorem byte_code (a : Byte) {n : Nat} (hn : n < 256) : a.toNat = n ↔ a = BitVec.ofNat 8 n := by
  rw [← BitVec.toNat_inj, BitVec.toNat_ofNat, Nat.mod_eq_of_lt hn]

/-- The doors of a CAR_STATE (R184). -/
theorem Doors.ofReport_byte (a : Byte) : Doors.ofReport a.toNat
    = if a = 0 then .closedLocked else if a = 1 then .closed else .opened := by
  have h0 : a.toNat = 0 ↔ a = 0 := byte_code a (by omega)
  have h1 : a.toNat = 1 ↔ a = 1 := byte_code a (by omega)
  unfold Doors.ofReport
  split
  next h => rw [if_pos (h0.1 h)]
  next h => rw [if_neg fun e => absurd (h0.2 e) (by omega), if_pos (h1.1 h)]
  next n0 n1 => rw [if_neg fun e => n0 (h0.2 e), if_neg fun e => n1 (h1.2 e)]

/-- A gate of a LOOP_STATE (R185). -/
theorem Gate.ofReport_byte (a : Byte) :
    Gate.ofReport a.toNat = if a = 0 then .closedLocked else .opened := by
  have h0 : a.toNat = 0 ↔ a = 0 := byte_code a (by omega)
  unfold Gate.ofReport
  split
  next h => rw [if_pos (h0.1 h)]
  next n0 => rw [if_neg fun e => n0 (h0.2 e)]

/-- Settles O36: each message sets its record, and settling leaves records, links and store. -/
theorem stateMessagesSetRecords : Obligations.StateMessagesSetRecords := by
  intro dt a b h l s hheld
  refine ⟨fun k hl => ?_, fun hl => ?_, fun hl => ?_⟩
  · have hperm : MsgType.carState.permitted k.party = true := by cases k <;> rfl
    obtain ⟨u, hsends, hrecs, hstore, hup, hdue⟩ := State.event_message (t := .carState) (pl := [a, b, h, l])
      hheld dt hl (by simp) hperm rfl
    have htake : u.takeMessage k.party .carState [a, b, h, l] = u.takeCarState k [a, b, h, l] := by
      unfold State.takeMessage
      rw [if_pos (show MsgType.carState.lengthOk [a, b, h, l] = true from rfl)]
      cases k <;> rfl
    rw [htake] at hsends
    obtain ⟨hrecs', hup', hdue', hstore'⟩ := hsends.message k.party
    refine ⟨_, rfl, ?_, hup'.trans hup, hdue'.trans hdue, hstore'.trans hstore⟩
    have hreport : u.carReport [a, b, h, l]
        = { doors := if a = 0 then .closedLocked else if a = 1 then .closed else .opened
            emergency := decide (b ≠ 0)
            load :=
              if 256 * h.toNat + l.toNat = 65535 then none
              else some (min (256 * (h.toNat : Int) + l.toNat) (s.const .mMax)) } := by
      have hraw : fieldAt [a, b, h, l] 2 2 = 256 * h.toNat + l.toNat := getUnsigned_two h l
      have hconst : u.const .mMax = s.const .mMax := by rw [State.const, hstore]; rfl
      have hemergency : decide (byteAt [a, b, h, l] 1 ≠ 0) = decide (b ≠ 0) :=
        decide_eq_decide.2 (not_congr (byte_code b (by omega)))
      rw [State.carReport, State.reportedLoad, hraw, hconst, hemergency, ← Doors.ofReport_byte]
      push_cast
      rfl
    rw [hrecs', hrecs, hreport]
  · obtain ⟨u, hsends, hrecs, hstore, hup, hdue⟩ := State.event_message (t := .loopState) (pl := [a, b])
      hheld dt hl (by simp) rfl rfl
    have htake : u.takeMessage .loopStation .loopState [a, b] = u.takeLoopState [a, b] :=
      if_pos (show MsgType.loopState.lengthOk [a, b] = true from rfl)
    rw [htake] at hsends
    obtain ⟨hrecs', hup', hdue', hstore'⟩ := hsends.message .loopStation
    refine ⟨_, rfl, ?_, hup'.trans hup, hdue'.trans hdue, hstore'.trans hstore⟩
    rw [hrecs', hrecs, ← Gate.ofReport_byte, ← Gate.ofReport_byte]
    rfl
  · obtain ⟨u, hsends, hrecs, hstore, hup, hdue⟩ := State.event_message (t := .driveState) (pl := [a, b])
      hheld dt hl (by simp) rfl rfl
    have htake : u.takeMessage .drive .driveState [a, b] = u.takeDriveState [a, b] :=
      if_pos (show MsgType.driveState.lengthOk [a, b] = true from rfl)
    rw [htake] at hsends
    obtain ⟨hrecs', hup', hdue', hstore'⟩ := hsends.message .drive
    refine ⟨_, rfl, ?_, hup'.trans hup, hdue'.trans hdue, hstore'.trans hstore⟩
    have hready : decide (byteAt [a, b] 0 = 1) = decide (a = 1) := decide_eq_decide.2 (byte_code a (by omega))
    rw [hrecs', hrecs, driveReport, hready]
    rfl

/-! ## The loss of a link -/

/-- The condition that a party's link is LOST (R161). -/
def Cond.lost : Party → Cond
  | .console => .linkLostConsole
  | .drive => .linkLostDrive
  | .loopStation => .linkLostLoop
  | .car1 => .linkLostCar .one
  | .car2 => .linkLostCar .two

theorem State.holds_lost (s : State) (p : Party) : s.holds (Cond.lost p) = !s.linkUp p := by
  cases p <;> rfl

/-- What the Fault Handler finds of the links is as the event left them. -/
theorem State.sense_outer (s : State) : Outer s s.sense :=
  (((s.returnToMain_settles.trans (State.bankStep_settles _)).trans (State.failover_settles _)).trans
    (State.terminalReference_settles _)).outer

/-- A link that goes LOST brings its fault, with the car it names (R161, R183). -/
theorem State.settle_lost {s : State} {p : Party} (hup : s.linkUp p = false) (hc : Cond.lost p ∉ s.conds) :
    ∃ e ∈ s.settle.faults, e.kind = (Cond.lost p).kind ∧ (Cond.lost p).cars.join e.cars = e.cars := by
  refine State.settle_taken ?_ hc
  rw [State.holds_lost, State.linkUp, State.link, s.sense_outer.links]
  exact congrArg Bool.not hup

/-- A link that goes LOST is LOST with its timer idle, and the others stand (R183). -/
theorem State.loseLink_link (s : State) (p q : Party) :
    (s.loseLink p).link q = if p = q then { s.link q with up := false, due := none } else s.link q := by
  cases p <;> cases q <;> rfl

/-- Settles O29: the loss changes its link, its record and the staging copy, and its condition rises. -/
theorem linkTimeoutLosesLink : Obligations.LinkTimeoutLosesLink := by
  intro dt d p s hheld hd hdue hup
  have hsends := State.event_sends hheld dt (State.takeLinkTimeout p)
  have hnow : isDue ((s.advance dt).link p).due (s.advance dt).time = true := by
    show isDue (s.link p).due (s.time + dt) = true
    rw [hd]
    exact decide_eq_true hdue
  have hbody : (s.advance dt).takeLinkTimeout p = ((s.advance dt).loseLink p).settle := by
    unfold State.takeLinkTimeout
    rw [if_pos hnow, if_pos (show (s.advance dt).linkUp p = true from hup)]
  rw [hbody] at hsends
  have hlink := State.loseLink_link (s.advance dt) p
  have hrecs : ((s.advance dt).loseLink p).recs = s.recs.lose p := rfl
  have hstore : ((s.advance dt).loseLink p).store
      = if p = .console then { s.store with staging := none } else s.store := rfl
  have hconds : ((s.advance dt).loseLink p).conds = s.conds := rfl
  generalize (s.advance dt).loseLink p = u at *
  have ho := u.settle_settles.outer
  have hsettled (q : Party) : u.settle.link q = u.link q := by
    rw [State.link, ho.links]
    rfl
  have hlinks (q : Party) := hsends.links q
  simp only [hsettled, hlink] at hlinks
  refine ⟨_, rfl, ?_, ?_, fun q hq => ?_, ?_, ?_, fun hc => ?_⟩
  · exact (hlinks p).1.trans (by rw [if_pos rfl])
  · exact (hlinks p).2.1.trans (by rw [if_pos rfl])
  · have hne : ¬ p = q := fun h => hq h.symm
    rw [(hlinks q).1, (hlinks q).2.1, if_neg hne]
    exact ⟨rfl, rfl⟩
  · exact (hsends.recs.trans ho.recs).trans hrecs
  · exact (hsends.store.trans ho.store).trans hstore
  · have hlost : u.linkUp p = false := by
      rw [State.linkUp, hlink, if_pos rfl]
    have hnot : (Cond.lost p) ∉ u.conds := by
      rw [hconds, hc]
      refine State.not_mem_holding ?_
      rw [State.holds_lost, hup]
      rfl
    obtain ⟨e, he, hkind, hcars⟩ := State.settle_lost hlost hnot
    rw [hsends.faults]
    refine ⟨e, he, ?_⟩
    cases p
    case car1 => exact ⟨hkind, by rw [← hcars]; rfl⟩
    case car2 => exact ⟨hkind, by rw [← hcars]; rfl⟩
    all_goals exact hkind

end Sys2Proof.Machine
end

section
/-!
Run requests: their checks, their place in the queue, and the merging of a loop call.  A request whose answer
keeps the fields of the command messages sends none of them.
-/

namespace Sys2Proof.Machine

open Sys2Proof

set_option Elab.async false

/-! ## What the command messages are formed from -/

/-- The parts of two states that the trigger fields of the command messages are formed from (R187). -/
structure AlikeTriggers (s t : State) : Prop where
  state : t.run.state = s.run.state
  stop : t.run.dwellStop = s.run.dwellStop
  err : t.run.dwellErr = s.run.dwellErr
  next : t.run.record.map (·.target) = s.run.record.map (·.target)
  approaching : t.run.approaching = s.run.approaching
  rail : t.brk.rail = s.brk.rail
  active : t.store.active = s.store.active
  up : ∀ p, t.linkUp p = s.linkUp p

/-- The next stop of a CAR_COMMAND, from the target of the Run Record (R78). -/
theorem State.nextStop_eq (s : State) : s.nextStop
    = (s.run.record.map (·.target)).getD (if s.run.state = .dwell then s.run.dwellStop else none) := by
  unfold State.nextStop
  cases s.run.record <;> rfl

theorem AlikeTriggers.door {s t : State} (h : AlikeTriggers s t) (k : Car) :
    t.doorRelease k = s.doorRelease k := by
  unfold State.doorRelease State.window
  rw [h.stop, h.state, h.err, h.active]
  simp only [h.up]

theorem AlikeTriggers.car {s t : State} (h : AlikeTriggers s t) (k : Car) :
    s.carTrigger k = t.carTrigger k := by
  unfold State.carTrigger
  rw [State.nextStop_eq, State.nextStop_eq, h.door, h.state, h.stop, h.err, h.next, h.rail]

theorem AlikeTriggers.loop {s t : State} (h : AlikeTriggers s t) : s.loopTrigger = t.loopTrigger := by
  unfold State.loopTrigger State.gateRelease
  rw [h.door, h.door, h.stop, h.approaching]

/-! ## The delivery of a request -/

/-- A request of the right length from a party that may send it reaches its owning block (R179). -/
theorem State.takeFrame_delivered (s : State) {p : Party} {t : MsgType} {pl : List Byte}
    (hperm : t.permitted p = true) (hstate : t.isState = false) (hl : t.lengthOk pl = true) :
    s.takeFrame p t.code pl = s.takeRequest p t pl := by
  unfold State.takeFrame
  simp only [MsgType.ofCode_code, hperm, hstate, hl, Bool.not_true, Bool.false_eq_true, if_false]

/-- The state in which the owning block answers a request on a party's UP link, `dt` µs on. -/
def State.called (s : State) (dt : Nat) (p : Party) : State := (s.advance dt).heard p

theorem State.called_up (s : State) (dt : Nat) (p q : Party) : (s.called dt p).linkUp q = s.linkUp q :=
  ((s.advance dt).heard_same p).up q

section
variable {s : State} (hheld : s.held = false) {p : Party} (hh : s.Hears p) (dt : Nat) {t : MsgType}
  {pl : List Byte} (hperm : t.permitted p = true) (hstate : t.isState = false) (hl : t.lengthOk pl = true)
  {u : State} {r : Reply} (ha : (s.called dt p).answer p t pl = (u, r))
include hheld hh hperm hstate hl ha

/-- The event of a request is its answer, its REPLY, and the command messages that it triggers. -/
theorem State.event_call :
    s.event dt (State.hear p t.code pl) = State.announce (s.advance dt) (u.reply p t.code pl r) := by
  rw [State.event_runs hheld, State.hear_hears (s := s.advance dt) hh t.code (MsgType.length_le_of_lengthOk hl),
    State.takeFrame_delivered _ hperm hstate hl, State.takeRequest, ← State.called, ha]

/-- Beyond the answer and the REPLY the event of a request only sends messages. -/
theorem State.event_call_sends :
    Sends (u.reply p t.code pl r) (s.event dt (State.hear p t.code pl)) := by
  rw [State.event_call hheld hh dt hperm hstate hl ha]
  exact State.announce_sends _ _

/-- A request whose answer keeps the fields of the command messages sends its REPLY alone. -/
theorem State.event_call_alike (hq : u.Quiet) (hu : AlikeTriggers s u) :
    s.event dt (State.hear p t.code pl) = u.reply p t.code pl r := by
  rw [State.event_call hheld hh dt hperm hstate hl ha]
  have hreply : AlikeTriggers (s.advance dt) (u.reply p t.code pl r) :=
    { hu with up := fun q => (State.send_up u p q _ _).trans (hu.up q) }
  exact State.announce_same hq hreply.car hreply.loop

end

/-- A request that is refused sends its REPLY alone. -/
theorem State.event_refused {s : State} (hr : s.Ready) {p : Party} (hh : s.Hears p) (dt : Nat) {t : MsgType}
    {pl : List Byte} (hperm : t.permitted p = true) (hstate : t.isState = false) (hl : t.lengthOk pl = true)
    {r : Reply} (ha : (s.called dt p).answer p t pl = (s.called dt p, r)) :
    s.event dt (State.hear p t.code pl) = s.answered dt p t.code (tagOf pl) r := by
  refine State.event_answered hr hh dt t.code (MsgType.length_le_of_lengthOk hl) ?_
  rw [State.takeFrame_delivered _ hperm hstate hl, State.takeRequest, ← State.called, ha]

/-! ## The candidate of a run request -/

theorem CallKind.ofCode_byte (k : Byte) : CallKind.ofCode k.toNat = runKind k := by
  have h1 : k.toNat = 1 ↔ k = 1 := byte_code k (by omega)
  have h2 : k.toNat = 2 ↔ k = 2 := byte_code k (by omega)
  unfold CallKind.ofCode
  split <;> unfold runKind
  next h => rw [if_pos (h1.1 h)]
  next h => rw [if_neg fun e => absurd (h1.2 e) (by omega), if_pos (h2.1 h)]
  next n1 n2 => rw [if_neg fun e => n1 (h1.2 e), if_neg fun e => n2 (h2.2 e)]

theorem Stop.ofCode_byte (x : Byte) : Stop.ofCode x.toNat = runStop x := by
  have h1 : x.toNat = 1 ↔ x = 1 := byte_code x (by omega)
  have h2 : x.toNat = 2 ↔ x = 2 := byte_code x (by omega)
  have h3 : x.toNat = 3 ↔ x = 3 := byte_code x (by omega)
  unfold Stop.ofCode
  split <;> unfold runStop
  next h => rw [if_pos (h1.1 h)]
  next h => rw [if_neg fun e => absurd (h1.2 e) (by omega), if_pos (h2.1 h)]
  next h => rw [if_neg fun e => absurd (h1.2 e) (by omega), if_neg fun e => absurd (h2.2 e) (by omega),
      if_pos (h3.1 h)]
  next n1 n2 n3 => rw [if_neg fun e => n1 (h1.2 e), if_neg fun e => n2 (h2.2 e), if_neg fun e => n3 (h3.2 e)]

/-- The side of a side code (10.7). -/
theorem Side.ofCode_byte (y : Byte) : Side.ofCode y.toNat
    = if y = 1 then some .east else if y = 2 then some .west else if y = 3 then some .both else none := by
  have h1 : y.toNat = 1 ↔ y = 1 := byte_code y (by omega)
  have h2 : y.toNat = 2 ↔ y = 2 := byte_code y (by omega)
  have h3 : y.toNat = 3 ↔ y = 3 := byte_code y (by omega)
  unfold Side.ofCode
  split
  next h => rw [if_pos (h1.1 h)]
  next h => rw [if_neg fun e => absurd (h1.2 e) (by omega), if_pos (h2.1 h)]
  next h => rw [if_neg fun e => absurd (h1.2 e) (by omega), if_neg fun e => absurd (h2.2 e) (by omega),
      if_pos (h3.1 h)]
  next n1 n2 n3 => rw [if_neg fun e => n1 (h1.2 e), if_neg fun e => n2 (h2.2 e), if_neg fun e => n3 (h3.2 e)]

theorem runKind_through {k : Byte} {kind : CallKind} (h : runKind k = some kind) :
    k = 2 ↔ kind = .through := by
  unfold runKind at h
  split at h
  next h1 => subst h1; cases h; decide
  next h1 =>
    split at h
    next h2 => cases h; exact ⟨fun _ => rfl, fun _ => h2⟩
    next => cases h

theorem runStop_loop {x : Byte} {stop : Stop} (h : runStop x = some stop) : x = 2 ↔ stop = .loop := by
  unfold runStop at h
  split at h
  next h1 => subst h1; cases h; decide
  next h1 =>
    split at h
    next h2 => cases h; exact ⟨fun _ => rfl, fun _ => h2⟩
    next h2 =>
      split at h
      next => cases h; exact ⟨fun e => absurd e h2, fun e => by cases e⟩
      next => cases h

/-- The candidate of a RUN is a call of the console for both sides (R56). -/
theorem runCandidate_eq (tag k x : Byte) :
    runCandidate [tag, k, x] = (runFields k x).map fun id => (id, .both) := by
  have hk : CallKind.ofCode (byteAt [tag, k, x] 1) = runKind k := CallKind.ofCode_byte k
  have hx : Stop.ofCode (byteAt [tag, k, x] 2) = runStop x := Stop.ofCode_byte x
  unfold runCandidate runFields
  rw [hk, hx]
  cases hkind : runKind k with
  | none => rfl
  | some kind =>
    cases hstop : runStop x with
    | none => cases kind <;> rfl
    | some stop =>
      simp only [runKind_through hkind, runStop_loop hstop]
      cases kind <;> cases stop <;> rfl

/-- The candidate of a CALL_LOOP from a party that may send it (R56, R179). -/
theorem callCandidate_eq (tag y : Byte) {p : Party} (hp : MsgType.callLoop.permitted p = true) :
    callCandidate p [tag, y] = callFields p y := by
  cases p
  case car1 | car2 => rfl
  case loopStation =>
    have hy : Side.ofCode (byteAt [tag, y] 1) = Side.ofCode y.toNat := rfl
    unfold callCandidate callFields
    simp only [hy, Side.ofCode_byte]
    repeat' split
    all_goals rfl
  all_goals cases hp

/-! ## The checks -/

/-- The checks of a run request before its fields, and the two on its candidate (R57). -/
theorem runRefusal_eq (s : State) (valid known : Bool) : runRefusal s valid known =
    match s.runRequestRefusal with
    | some c => some c
    | none => if valid = false then some .badValue
      else if known = false ∧ 6 ≤ s.queue.length then some .queueFull else none := by
  have hreferenced : (!s.reck.referenced) = true ↔ s.reck.referenced = false := by simp
  have hfault : s.run.state.isFault = true ↔ s.run.state = .faultStopping ∨ s.run.state = .faultHeld := by
    cases s.run.state <;> simp [RunState.isFault]
  unfold runRefusal State.runRequestRefusal
  simp only [hreferenced, hfault, Store.busy_iff, Store.editOpen]
  repeat' split
  all_goals simp_all

/-- A candidate that fails the checks is refused with the code that they give (R57). -/
theorem State.answerRun_refused {s : State} {cand : Option (Ident × Side)} {c : ReplyCode}
    (h : runRefusal s cand.isSome (s.queue.any fun e => decide (some e.id = cand.map (·.1))) = some c) :
    s.answerRun cand = s.refuse c := by
  rw [runRefusal_eq] at h
  unfold State.answerRun
  cases hrefusal : s.runRequestRefusal with
  | some c' =>
    rw [hrefusal] at h
    cases h
    rfl
  | none =>
    rw [hrefusal] at h
    cases cand with
    | none =>
      cases h
      rfl
    | some call =>
      have hfull : s.queueFull call.1 = true
          ↔ (s.queue.any fun e => decide (some e.id = some call.1)) = false ∧ 6 ≤ s.queue.length := by
        simp [State.queueFull, State.queued]
      simp only [Option.isSome_some, Bool.true_eq_false, if_false, Option.map_some, ← hfull] at h
      split at h
      next hf =>
        cases h
        exact if_pos hf
      next => cases h

/-- A candidate that passes the checks is taken, in PARKED with the event's arbitration (R57, R59, R61). -/
theorem State.answerRun_taken {s : State} {id : Ident} {side : Side}
    (h : runRefusal s true (s.queued id) = none) :
    s.answerRun (some (id, side)) = (if s.run.state = .parked then (s.takeRunRequest id side).1.settle
      else (s.takeRunRequest id side).1, (s.takeRunRequest id side).2) := by
  rw [runRefusal_eq] at h
  unfold State.answerRun
  cases hrefusal : s.runRequestRefusal with
  | some c' =>
    rw [hrefusal] at h
    cases h
  | none =>
    rw [hrefusal] at h
    have hfull : s.queueFull id = true ↔ s.queued id = false ∧ 6 ≤ s.queue.length := by
      simp [State.queueFull]
    simp only [Bool.true_eq_false, if_false, ← hfull] at h
    split at h
    next => cases h
    next hf => exact if_neg hf

/-- Settles O38: the checks are made on a state that the frame has not changed. -/
theorem runRequestIsChecked : Obligations.RunRequestIsChecked := by
  intro dt tag k x c s hr
  refine ⟨fun hh h => ?_, fun p hp hh h => ?_⟩
  · refine congrArg _ (State.event_refused hr hh dt (t := .run) rfl rfl rfl ?_)
    refine State.answerRun_refused (cand := runCandidate [tag, k, x]) ?_
    have hid : ((runFields k x).map fun id => (id, Side.both)).map (·.1) = runFields k x := by
      cases runFields k x <;> rfl
    rw [runCandidate_eq, Option.isSome_map, hid]
    exact h
  · refine congrArg _ (State.event_refused hr hh dt (t := .callLoop) hp rfl rfl ?_)
    refine State.answerRun_refused (cand := callCandidate p [tag, x]) ?_
    rw [callCandidate_eq tag x hp]
    exact h

/-! ## The taking of a run request -/

theorem Side.join_eq (a b : Side) : a.join b = if a = b then b else .both := by
  cases a <;> cases b <;> rfl

/-- The queue after a call: joined into its entry, or with an entry at its tail (R59, R60). -/
def State.queueWith (s : State) (id : Ident) (side : Side) : List Entry :=
  if s.queued id = true then
    s.queue.map fun e => if e.id = id then { e with side := if e.side = side then side else .both } else e
  else s.queue ++ [⟨id, side, false⟩]

/-- A record that serves a new call for its own stop (R59). -/
def RunRecord.serve (id : Ident) (r : RunRecord) : RunRecord :=
  if r.mode ≠ .creep ∧ r.target = some id.stop then { r with served := r.served ++ [id] } else r

/-- The Run Record after a call: one of its stop that has no entry yet is served too (R59). -/
def State.recordWith (s : State) (id : Ident) : Option RunRecord :=
  if s.queued id = true then s.run.record else s.run.record.map (RunRecord.serve id)

/-- Adding to the served-entry list, by the record (R59). -/
theorem State.addServed_eq (s : State) (id : Ident) :
    s.addServed id = { s with run := { s.run with record := s.run.record.map (RunRecord.serve id) } } := by
  have hsame (h : s.run.record.map (RunRecord.serve id) = s.run.record) :
      s = { s with run := { s.run with record := s.run.record.map (RunRecord.serve id) } } := by
    rw [h]
  cases hrecord : s.run.record with
  | none =>
    have hserving : s.servingRun = none := by rw [State.servingRun, hrecord]
    rw [State.addServed, hserving]
    rw [hrecord] at hsame
    exact hsame rfl
  | some r =>
    have hserving : s.servingRun = if r.mode = .creep then none else some r := by
      rw [State.servingRun, hrecord]
    rw [State.addServed, hserving]
    rw [hrecord] at hsame
    by_cases hm : r.mode = .creep
    · rw [if_pos hm]
      exact hsame (congrArg some (if_neg fun h => h.1 hm))
    · rw [if_neg hm]
      simp only
      by_cases ht : r.target = some id.stop
      · rw [if_pos ht]
        have hserve : RunRecord.serve id r = { r with served := r.served ++ [id] } := if_pos ⟨hm, ht⟩
        have hmap : (s.run.record.map fun r => { r with served := r.served ++ [id] })
            = (some r).map (RunRecord.serve id) := by
          rw [hrecord, Option.map_some, Option.map_some, hserve]
        exact congrArg (fun x => ({ s with run := { s.run with record := x } } : State)) hmap
      · rw [if_neg ht]
        exact hsame (congrArg some (if_neg fun h => ht h.2))

/-- Taking a call, in full (R59, R60). -/
theorem State.takeCall_with (s : State) (id : Ident) (side : Side) : s.takeCall id side
    = { s with queue := s.queueWith id side, run := { s.run with record := s.recordWith id } } := by
  unfold State.takeCall State.queueWith State.recordWith
  simp only [Side.join_eq]
  split
  next => rfl
  next => exact State.addServed_eq _ id

/-- A call changes no record's target (R59). -/
theorem State.recordWith_target (s : State) (id : Ident) :
    (s.recordWith id).map (·.target) = s.run.record.map (·.target) := by
  unfold State.recordWith
  split
  next => rfl
  next =>
    rw [Option.map_map]
    congr 1
    funext r
    simp only [Function.comp, RunRecord.serve]
    split <;> rfl

/-- Outside PARKED no event is an arbitration event (R61). -/
theorem State.wantArbitration_moving {s : State} (h : s.run.state ≠ .parked) : s.wantArbitration = s := by
  have hmark : (s.run.arbitrate || decide (s.run.state = .parked)) = s.run.arbitrate := by
    rw [decide_eq_false h, Bool.or_false]
  exact congrArg (fun b => ({ s with run := { s.run with arbitrate := b } } : State)) hmark

/-- A call that is not merged, outside PARKED (R59, R66). -/
theorem State.takeRunRequest_queued {s : State} {id : Ident} (side : Side) (hp : s.run.state ≠ .parked)
    (hm : (s.mergeTested id.stop && s.mergePasses) = false) :
    s.takeRunRequest id side = (s.takeCall id side,
      { code := if s.queued id = true then .accepted else .queued }) := by
  have hstate : (s.takeCall id side).run.state ≠ .parked := by
    rw [State.takeCall_with]
    exact hp
  unfold State.takeRunRequest
  rw [hm, State.wantArbitration_moving hstate]
  simp only [Bool.false_eq_true, if_false, State.takenReply, hp, or_false]

/-- Settles O39: the call is taken into queue and record, from which no command message is formed. -/
theorem runRequestIsQueued : Obligations.RunRequestIsQueued := by
  intro dt tag k x id s hr hparked hchecked htest taken
  have hmerge (p : Party) : ((s.called dt p).mergeTested id.stop && (s.called dt p).mergePasses) = false := by
    have htested : (s.called dt p).mergeTested id.stop = s.mergeTested id.stop := by
      unfold State.mergeTested
      rw [State.called_up]
      rfl
    rw [htested]
    cases hm : s.mergeTested id.stop with
    | false => rfl
    | true => exact decide_eq_false (not_le.2 (htest hm))
  have hanswer (p : Party) (side : Side) : (s.called dt p).answerRun (some (id, side))
      = ((s.called dt p).takeCall id side,
        { code := if s.queued id = true then .accepted else .queued }) := by
    rw [State.answerRun_taken (s := s.called dt p) hchecked,
      State.takeRunRequest_queued (s := s.called dt p) side hparked (hmerge p)]
    exact congrArg (fun u => (u, _)) (if_neg hparked)
  have hevent {p : Party} (hh : s.Hears p) {t : MsgType} {pl : List Byte} (hperm : t.permitted p = true)
      (hstate : t.isState = false) (hl : t.lengthOk pl = true) {side : Side}
      (ha : (s.called dt p).answer p t pl = (s.called dt p).answerRun (some (id, side)))
      (htag : tagOf pl = tag) : s.event dt (State.hear p t.code pl) = taken p t.code side := by
    have hanswer' := ha.trans (hanswer p side)
    rw [State.takeCall_with] at hanswer'
    have halike := State.event_call_alike hr.1 hh dt hperm hstate hl hanswer' hr.2
      { state := rfl, stop := rfl, err := rfl, next := State.recordWith_target _ id, approaching := rfl,
        rail := rfl, active := rfl, up := State.called_up s dt p }
    rw [halike]
    show _ = taken p t.code side
    subst htag
    have hqueue : (s.called dt p).queueWith id side = s.queueWith id side := rfl
    have hrecord : (s.called dt p).recordWith id = s.recordWith id := rfl
    rw [hqueue, hrecord]
    simp only [taken]
    unfold State.queueWith State.recordWith
    split
    all_goals cases p <;> rfl
  refine ⟨fun hh hk => congrArg _ (hevent hh (t := .run) rfl rfl rfl ?_ rfl),
    fun p side hh hp hc => congrArg _ (hevent hh (t := .callLoop) hp rfl rfl ?_ rfl)⟩
  · show State.answerRun _ (runCandidate [tag, k, x]) = _
    rw [runCandidate_eq, hk]
    rfl
  · show State.answerRun _ (callCandidate p [tag, x]) = _
    rw [callCandidate_eq tag x hp, hc]

/-! ## The links at the end of an event -/

/-- Sending messages leaves what the command messages are formed from (R187). -/
theorem Sends.alike {s t : State} (h : Sends s t) : AlikeTriggers s t where
  state := h.state
  stop := (congrArg RunControl.dwellStop h.run :)
  err := (congrArg RunControl.dwellErr h.run :)
  next := (congrArg (fun r => r.record.map (·.target)) h.run :)
  approaching := (congrArg RunControl.approaching h.run :)
  rail := by rw [h.brk]
  active := by rw [h.store]
  up p := (h.links p).1

/-- The CAR_COMMAND of a car as it stands (R187). -/
def State.carFrame (s : State) (k : Car) : Frame :=
  ⟨MsgType.carCommand.code, (s.carTrigger k).payload s.absV⟩

/-- The LOOP_COMMAND as it stands (R187). -/
def State.loopFrame (s : State) : Frame := ⟨MsgType.loopCommand.code, s.loopTrigger.payload⟩

theorem Sends.carFrame {s t : State} (h : Sends s t) (k : Car) : t.carFrame k = s.carFrame k := by
  have habs : t.absV = s.absV := by unfold State.absV; rw [h.reck]
  unfold State.carFrame
  rw [h.alike.car k, habs]

theorem Sends.loopFrame {s t : State} (h : Sends s t) : t.loopFrame = s.loopFrame := by
  unfold State.loopFrame
  rw [h.alike.loop]

/-- A car's CAR_COMMAND goes to its own link (R187). -/
theorem State.announceCar_other (before s : State) {k : Car} {q : Party} (hq : k.party ≠ q) :
    (State.announceCar before k s).link q = s.link q := by
  unfold State.announceCar
  split
  · cases k <;> cases q <;> first | rfl | exact absurd rfl hq
  · rfl

theorem State.announceCar_own (before s : State) (k : Car) : (State.announceCar before k s).link k.party
      = if s.run.changed = true ∨ before.carTrigger k ≠ s.carTrigger k
        then (s.link k.party).hand .carCommand [s.carFrame k] else s.link k.party := by
  unfold State.announceCar
  split
  · cases k <;> rfl
  · rfl

/-- The LOOP_COMMAND goes to its own link (R187). -/
theorem State.announceLoop_other (before s : State) {q : Party} (hq : Party.loopStation ≠ q) :
    (State.announceLoop before s).link q = s.link q := by
  unfold State.announceLoop
  split
  · cases q <;> first | rfl | exact absurd rfl hq
  · rfl

theorem State.announceLoop_own (before s : State) : (State.announceLoop before s).link .loopStation
      = if s.run.changed = true ∨ before.loopTrigger ≠ s.loopTrigger
        then (s.link .loopStation).hand .loopCommand [s.loopFrame] else s.link .loopStation := by
  unfold State.announceLoop
  split <;> rfl

theorem State.announceCar_changed (before s : State) (k : Car) :
    (State.announceCar before k s).run.changed = s.run.changed := by
  unfold State.announceCar
  split <;> rfl

/-- An event's end sends a car's CAR_COMMAND where its fields have changed (R187). -/
theorem State.announce_car {before s : State} {k : Car} (hc : before.carTrigger k ≠ s.carTrigger k) :
    (State.announce before s).link k.party = (s.link k.party).hand .carCommand [s.carFrame k] := by
  have hsends := State.announceCar_sends before s .one
  show (State.announceLoop before (State.announceCar before .two (State.announceCar before .one s))).link _ = _
  cases k with
  | one =>
    rw [State.announceLoop_other _ _ (q := Car.one.party) Party.noConfusion,
      State.announceCar_other _ _ (k := .two) (q := Car.one.party) Party.noConfusion, State.announceCar_own,
      if_pos (.inr hc)]
  | two =>
    rw [State.announceLoop_other _ _ (q := Car.two.party) Party.noConfusion, State.announceCar_own,
      hsends.carFrame, ← hsends.alike.car, if_pos (.inr hc),
      State.announceCar_other _ _ (k := .one) (q := Car.two.party) Party.noConfusion]

/-- An event's end sends the LOOP_COMMAND where its fields have changed (R187). -/
theorem State.announce_loop {before s : State} (hq : s.run.changed = false) :
    (State.announce before s).link .loopStation
      = if before.loopTrigger ≠ s.loopTrigger then (s.link .loopStation).hand .loopCommand [s.loopFrame]
        else s.link .loopStation := by
  have hsends := (State.announceCar_sends before s .one).trans (State.announceCar_sends before _ .two)
  have hmark : (State.announceCar before .two (State.announceCar before .one s)).run.changed = false := by
    rw [State.announceCar_changed, State.announceCar_changed, hq]
  show (State.announceLoop before (State.announceCar before .two (State.announceCar before .one s))).link _ = _
  rw [State.announceLoop_own, hsends.loopFrame, ← hsends.alike.loop, hmark,
    State.announceCar_other _ _ (k := .two) (q := .loopStation) Party.noConfusion,
    State.announceCar_other _ _ (k := .one) (q := .loopStation) Party.noConfusion]
  simp only [Bool.false_eq_true, false_or]

end Sys2Proof.Machine
end

section
/-!
A loop call that merges into the run in progress, and a run request that starts its run from PARKED.
-/

namespace Sys2Proof.Machine

open Sys2Proof

set_option Elab.async false

/-! ## Merging -/

/-- The record of a run that has merged a loop call (R67). -/
theorem State.merge_record {s : State} {r : RunRecord} (h : s.run.record = some r) :
    s.merge.run.record = some
      { r with
        target := some .loop, served := s.servedFor .loop, merged := true
        sStar := s.merge.target.map (·.sStar) } := by
  have hrecord (f g : RunRecord → RunRecord) : (s.run.record.map f).map g = some (g (f r)) := by
    rw [h]
    rfl
  exact hrecord _ _

/-- What a merge sets and leaves beside the record (R67, R133, R136). -/
theorem State.merge_leaves (s : State) : s.merge.queue = s.queue ∧ s.merge.run.state = s.run.state
    ∧ s.merge.run.approaching = true ∧ (∃ h, s.merge.target = some h ∧ h.stop = .loop)
    ∧ s.merge.brk = s.brk ∧ s.merge.store = s.store ∧ s.merge.prof.vRef = s.prof.vRef
    ∧ s.merge.links = s.links ∧ s.merge.run.changed = s.run.changed
    ∧ s.merge.run.dwellStop = s.run.dwellStop := by
  have hstop (list : List Entry) (u : State) : (u.targetFor .loop list).stop = .loop := by
    unfold State.targetFor makeTarget
    simp only
    split <;> rfl
  exact ⟨rfl, rfl, rfl, ⟨_, rfl, hstop _ _⟩, rfl, rfl, rfl, rfl, rfl, rfl⟩

section
variable {s : State} (hr : s.Ready) (hrun : s.run.state = .running) {r : RunRecord}
  (hrecord : s.run.record = some r) (hmode : r.mode = .stop ∨ r.mode = .shuttle)
  (htarget : r.target = some .lower ∨ r.target = some .upper) (hup : s.linkUp .loopStation = true)
  (hahead : 0 < (s.starOf .loop - s.reck.sample.s) * r.dir.sign)
  (hslow : s.absV ≤ isqrt (2 * s.aRun * max 0 (mag (s.starOf .loop - s.reck.sample.s) - s.settings.m)))
include hrun hrecord hmode htarget hup hahead hslow

/-- A run toward a terminal before the loop is tested, and slow enough it merges (R66). -/
theorem State.mergeTested_passes : (s.mergeTested .loop && s.mergePasses) = true := by
  have hm : (decide (r.mode = .stop) || decide (r.mode = .shuttle)) = true := by simpa using hmode
  have ht : (decide (r.target = some .lower) || decide (r.target = some .upper)) = true := by
    simpa using htarget
  unfold State.mergeTested State.mergePasses
  simp only [hrecord, hrun, hm, ht, hup, decide_true, Bool.true_and]
  exact Bool.and_eq_true_iff.2 ⟨decide_eq_true hahead, decide_eq_true hslow⟩

/-- A loop call that passes its checks and the merge test is taken and merged (R59, R66, R67). -/
theorem State.answerRun_merged {id : Ident} (hid : id.stop = .loop) (side : Side)
    (hchecked : runRefusal s true (s.queued id) = none) :
    s.answerRun (some (id, side)) = ((s.takeCall id side).merge, { code := .merged }) := by
  have hparked : ¬ s.run.state = .parked := by
    rw [hrun]
    exact RunState.noConfusion
  have htest := State.mergeTested_passes hrun hrecord hmode htarget hup hahead hslow
  rw [State.answerRun_taken hchecked, if_neg hparked]
  unfold State.takeRunRequest
  rw [hid, htest]
  rfl

end

/-- A call for LOOP leaves the record of a run toward a terminal (R59). -/
theorem State.recordWith_loop {s : State} {r : RunRecord} (h : s.run.record = some r)
    (htarget : r.target = some .lower ∨ r.target = some .upper) {id : Ident} (hid : id.stop = .loop) :
    s.recordWith id = some r := by
  have hserve : RunRecord.serve id r = r := by
    refine if_neg ?_
    rintro ⟨-, ht⟩
    rw [hid] at ht
    rcases htarget with h | h <;> rw [h] at ht <;> cases ht
  unfold State.recordWith
  rw [h, Option.map_some, hserve, ite_self]

/-- The link of a REPLY, in a state whose links are as the frame left them. -/
theorem State.reply_link {s u : State} {dt : Nat} {p : Party} (h : u.links = (s.called dt p).links) (type : Byte)
    (pl : List Byte) (r : Reply) : (u.reply p type pl r).link p
      = (s.heardLink dt p).hand .reply [replyFrame type (tagOf pl) r] := by
  have hlink : u.link p = s.heardLink dt p := by
    rw [← State.heard_link, State.link, h]
    rfl
  rw [← hlink]
  cases p <;> rfl

/-- What a merged loop call leaves, of the record `r` and the state `s` before it (R67). -/
structure Merged (s : State) (r : RunRecord) (id : Ident) (side : Side) (u : State) : Prop where
  record : u.run.record = some
    { r with
      target := some .loop, served := (u.queue.filter fun e => decide (e.id.stop = .loop)).map (·.id)
      merged := true, sStar := u.target.map (·.sStar) }
  queue : u.queue = s.queueWith id side
  state : u.run.state = .running
  approaching : u.run.approaching = true
  target : ∃ h, u.target = some h ∧ h.stop = .loop
  brk : u.brk = s.brk
  store : u.store = s.store
  vRef : u.prof.vRef = s.prof.vRef

theorem Merged.sends {s u t : State} {r : RunRecord} {id : Ident} {side : Side} (h : Merged s r id side u)
    (hs : Sends u t) : Merged s r id side t where
  record := by
    rw [hs.queue, hs.target]
    exact (congrArg RunControl.record hs.run :).trans h.record
  queue := hs.queue.trans h.queue
  state := hs.state.trans h.state
  approaching := (congrArg RunControl.approaching hs.run :).trans h.approaching
  target := by
    rw [hs.target]
    exact h.target
  brk := hs.brk.trans h.brk
  store := hs.store.trans h.store
  vRef := by
    rw [hs.prof]
    exact h.vRef

/-- The call taken and the run turned to LOOP (R59, R67). -/
theorem State.takeCall_merged {s : State} {r : RunRecord} (hrun : s.run.state = .running)
    (hrecord : s.run.record = some r) (htarget : r.target = some .lower ∨ r.target = some .upper) {id : Ident}
    (hid : id.stop = .loop) (side : Side) : Merged s r id side (s.takeCall id side).merge
      ∧ (s.takeCall id side).merge.links = s.links
      ∧ (s.takeCall id side).merge.run.changed = s.run.changed := by
  rw [State.takeCall_with, State.recordWith_loop hrecord htarget hid]
  obtain ⟨hqueue, hstate, happroaching, htarget, hbrk, hstore, href, hlinks, hchanged, -⟩ := State.merge_leaves
    { s with queue := s.queueWith id side, run := { s.run with record := some r } }
  exact ⟨⟨State.merge_record rfl, hqueue, hstate.trans hrun, happroaching, htarget, hbrk, hstore, href⟩,
    hlinks, hchanged⟩

/-- No gate is released while the line runs (R94, R135). -/
theorem State.gateRelease_running {s : State} (h : s.run.state = .running) (k : Car) :
    s.gateRelease k = false := by
  have hdoor : s.doorRelease k = false := by
    unfold State.doorRelease
    rw [h]
    split
    · rw [decide_eq_false RunState.noConfusion]
      rfl
    · rfl
  rw [State.gateRelease, hdoor, Bool.and_false]

theorem State.loopTrigger_running {s : State} (h : s.run.state = .running) :
    s.loopTrigger = ⟨false, false, s.run.approaching⟩ := by
  rw [State.loopTrigger, State.gateRelease_running h, State.gateRelease_running h]

theorem Merged.reply {s u : State} {r : RunRecord} {id : Ident} {side : Side} (h : Merged s r id side u)
    (p : Party) (type : Byte) (pl : List Byte) (rep : Reply) : Merged s r id side (u.reply p type pl rep) :=
  ⟨h.record, h.queue, h.state, h.approaching, h.target, h.brk, h.store, h.vRef⟩

/-- A merge changes the next stop that the cars are told (R67, R187). -/
theorem Merged.carTrigger {s u : State} {r : RunRecord} {id : Ident} {side : Side} (h : Merged s r id side u)
    (hrecord : s.run.record = some r) (htarget : r.target = some .lower ∨ r.target = some .upper) (k : Car) :
    s.carTrigger k ≠ u.carTrigger k := by
  intro he
  have hnext : s.nextStop = u.nextStop := congrArg CarTrigger.next he
  unfold State.nextStop at hnext
  rw [hrecord, h.record] at hnext
  have hloop : r.target = some .loop := hnext
  rw [hloop] at htarget
  rcases htarget with h | h <;> cases h

/-- A merge tells the loop station of a car's approach, unless it was told before (R136, R187). -/
theorem Merged.loopTrigger {s u : State} {r : RunRecord} {id : Ident} {side : Side} (h : Merged s r id side u)
    (hrun : s.run.state = .running) : s.loopTrigger ≠ u.loopTrigger ↔ s.run.approaching ≠ true := by
  rw [State.loopTrigger_running hrun, State.loopTrigger_running h.state, h.approaching]
  simp

/-- Settles O40: the call is taken, the run is turned to LOOP, and the REPLY is handed over before the command
messages, whose fields have changed. -/
theorem loopCallMerges : Obligations.LoopCallMerges := by
  intro dt tag y r s hr hrun hrecord hmode htarget hup hahead hslow merged
  have hanswer {p : Party} {id : Ident} (hid : id.stop = .loop) (side : Side)
      (hchecked : runRefusal s true (s.queued id) = none) :
      (s.called dt p).answerRun (some (id, side))
        = (((s.called dt p).takeCall id side).merge, { code := .merged }) :=
    State.answerRun_merged (s := s.called dt p) hrun hrecord hmode htarget
      ((State.called_up s dt p _).trans hup) hahead hslow hid side hchecked
  have hmerged {id : Ident} {side : Side} {t : State} (h : Merged s r id side t) : merged id side t :=
    ⟨⟨_, h.record, rfl, rfl, rfl, rfl, rfl, rfl, rfl, rfl⟩, h.queue, h.state, h.approaching, h.target, h.brk,
      h.store, h.vRef⟩
  have htaken (p : Party) {id : Ident} (hid : id.stop = .loop) (side : Side) :
      Merged s r id side ((s.called dt p).takeCall id side).merge
        ∧ ((s.called dt p).takeCall id side).merge.links = (s.called dt p).links
        ∧ ((s.called dt p).takeCall id side).merge.run.changed = false := by
    obtain ⟨hm, hlinks, hchanged⟩ := State.takeCall_merged (s := s.called dt p) hrun hrecord htarget hid side
    exact ⟨⟨hm.record, hm.queue, hm.state, hm.approaching, hm.target, hm.brk, hm.store, hm.vRef⟩, hlinks,
      hchanged.trans hr.2.1⟩
  refine ⟨fun p id side hh hp hc hchecked => ?_, fun hh hchecked => ?_⟩
  · intro replied
    have hid : id.stop = .loop := by
      unfold callFields at hc
      repeat' split at hc
      all_goals cases hc <;> rfl
    have hcall : (s.called dt p).answer p .callLoop [tag, y]
        = (((s.called dt p).takeCall id side).merge, { code := .merged }) := by
      show (s.called dt p).answerRun (callCandidate p [tag, y]) = _
      rw [callCandidate_eq tag y hp, hc]
      exact hanswer hid side hchecked
    have hevent := State.event_call hr.1 hh dt hp rfl rfl hcall
    have hsends := State.event_call_sends hr.1 hh dt hp rfl rfl hcall
    obtain ⟨hm, hlinks, hchanged⟩ := htaken p hid side
    generalize ((s.called dt p).takeCall id side).merge = u at hevent hsends hm hlinks hchanged
    have hreplied := State.reply_link hlinks MsgType.callLoop.code [tag, y] { code := .merged }
    have hm' := hm.reply p MsgType.callLoop.code [tag, y] { code := .merged }
    have hchanged' : (u.reply p MsgType.callLoop.code [tag, y] { code := .merged }).run.changed = false :=
      hchanged
    generalize u.reply p MsgType.callLoop.code [tag, y] { code := .merged } = w at hevent hsends hreplied hm' hchanged'
    refine ⟨_, rfl, hmerged (hm'.sends hsends), fun k hk => ?_, fun hl => ?_⟩
    · subst hk
      have hframe := hsends.carFrame k
      have hdiff : (s.advance dt).carTrigger k ≠ w.carTrigger k := hm'.carTrigger hrecord htarget k
      rw [hevent, State.announce_car hdiff, hreplied, ← hevent]
      exact congrArg (fun f => Link.hand _ MsgType.carCommand [f]) hframe.symm
    · subst hl
      have hframe := hsends.loopFrame
      have hdiff : (s.advance dt).loopTrigger ≠ w.loopTrigger ↔ s.run.approaching ≠ true := hm'.loopTrigger hrun
      rw [hevent, State.announce_loop hchanged', hreplied, ← hevent]
      by_cases happroaching : s.run.approaching = true
      · rw [if_neg fun h => hdiff.1 h happroaching, if_pos happroaching]
        rfl
      · rw [if_pos (hdiff.2 happroaching), if_neg happroaching]
        exact congrArg (fun f => Link.hand _ MsgType.loopCommand [f]) hframe.symm
  · have hcall : (s.called dt .console).answer .console .run [tag, 1, 2]
        = (((s.called dt .console).takeCall ⟨.console, .stop, .loop⟩ .both).merge, { code := .merged }) :=
      hanswer (p := .console) (id := ⟨.console, .stop, .loop⟩) rfl .both hchecked
    have hsends := State.event_call_sends hr.1 hh dt rfl rfl rfl hcall
    obtain ⟨hm, hlinks, -⟩ := htaken .console (id := ⟨.console, .stop, .loop⟩) rfl .both
    generalize ((s.called dt .console).takeCall ⟨.console, .stop, .loop⟩ .both).merge = u at hsends hm hlinks
    have hreplied := State.reply_link hlinks MsgType.run.code [tag, 1, 2] { code := .merged }
    exact ⟨_, rfl, hmerged ((hm.reply _ _ _ _).sends hsends), hsends.console.trans hreplied⟩

end Sys2Proof.Machine
end

section
/-!
The start of a run from PARKED: the choice of the next movement, and PREPARING.
-/

namespace Sys2Proof.Machine

open Sys2Proof

set_option Elab.async false

/-! ## Targets -/

/-- Where no entry of a list names a single side, car 1 is the favoured car (R130). -/
theorem favouredOf_both {l : List Entry} (h : ∀ e ∈ l, e.side = .both) : favouredOf l = .one := by
  have hnone : l.findSome? (·.side.single) = none :=
    List.findSome?_eq_none_iff.2 fun e he => by rw [h e he]; rfl
  rw [favouredOf, hnone]
  rfl

/-- A query reads the queue alone (R130). -/
theorem State.queryList_subset {s : State} {x : Stop} {e : Entry} (h : e ∈ s.queryList x) : e ∈ s.queue := by
  have hserved (h : e ∈ s.servedEntries) : e ∈ s.queue := by
    unfold State.servedEntries at h
    split at h
    · exact List.mem_of_mem_filter h
    · cases h
  unfold State.queryList at h
  split at h
  · split at h
    · exact hserved h
    · exact List.mem_of_mem_filter h
  · exact List.mem_of_mem_filter h

/-- The target of a stop rests on the list only by the car it favours (R127 to R131). -/
theorem makeTarget_favoured {l l' : List Entry} (h : favouredOf l = favouredOf l') (x : Stop)
    (s1 s2 window : Int) : makeTarget x s1 s2 window l = makeTarget x s1 s2 window l' := by
  unfold makeTarget
  rw [h]

theorem State.targetFor_stop (s : State) (x : Stop) (l : List Entry) : (s.targetFor x l).stop = x := by
  unfold State.targetFor makeTarget
  simp only
  split <;> rfl

/-- s* of a stop where the queue favours no car, before and after a change of queue and record that keeps the
frozen loads (R127 to R132). -/
theorem State.starOf_both {s t : State} (hs : ∀ e ∈ s.queue, e.side = .both)
    (ht : ∀ e ∈ t.queue, e.side = .both)
    (hfrozen : t.run.record.bind (·.frozen) = s.run.record.bind (·.frozen))
    (hrecs : t.recs = s.recs) (hstore : t.store = s.store) (hc : t.reck.c = s.reck.c) (x : Stop) :
    t.starOf x = s.starOf x := by
  have hfavoured : favouredOf (t.queryList x) = favouredOf (s.queryList x) := by
    rw [favouredOf_both fun e he => ht e (State.queryList_subset he),
      favouredOf_both fun e he => hs e (State.queryList_subset he)]
  unfold State.starOf State.targetFor
  rw [makeTarget_favoured hfavoured]
  unfold State.exact1 State.exact2 State.stretchAtTrack State.stretchOn State.tension State.loadCounted
    State.load State.lr State.const State.window
  rw [hfrozen, hrecs, hstore, hc]

/-! ## The choice -/

/-- With one entry queued, a STOP for both sides, a run to its stop is chosen where the cars do not stand
there (R62, R63). -/
theorem State.choose_single {s : State} {id : Ident} (hq : s.queue = [⟨id, .both, false⟩])
    (hkind : id.kind = .stop) (hup : s.linkUp .loopStation = true) (hstand : s.standAt id.stop = false) :
    s.choose = .run id.stop .stop (s.dirToward id.stop) := by
  have hold : s.oldestEligible = some ⟨id, .both, false⟩ := by
    rw [State.oldestEligible, hq]
    simp [State.eligible, hup]
  have hdivert (dir : Dir) : s.diverts ⟨id, .both, false⟩ dir = false := by
    unfold State.diverts
    rw [hq]
    by_cases hl : id.stop = .loop <;> simp [hl]
  unfold State.choose
  rw [hold]
  unfold State.chooseFor
  simp only [hstand, hdivert, Bool.false_eq_true, if_false, hkind]
  rfl

/-- Arbitration that may go ahead takes the choice (R61, R65). -/
theorem State.arbitrate_may {s : State}
    (h : (s.modRun fun r => { r with arbitrate := false }).mayArbitrate = true) :
    s.arbitrate = (s.modRun fun r => { r with arbitrate := false }).takeChoice
      (s.modRun fun r => { r with arbitrate := false }).choose := if_pos h

theorem State.runStep_arbitrates {s : State} (hp : s.run.state = .parked) (ha : s.run.arbitrate = true) :
    s.runStep = s.arbitrate := by
  simp only [State.runStep, hp, ha, if_true]

/-! ## PREPARING -/

/-- PREPARING stands while a car's doors are not reported locked (R83). -/
theorem State.runStep_preparing {s : State} (hst : s.run.state = .preparing)
    (hdoors : s.recs.car.one.doors ≠ .closedLocked ∨ s.recs.car.two.doors ≠ .closedLocked) :
    s.runStep = s := by
  have hnot : s.prepared = false := by
    have hready : s.doorsReady = false := by
      unfold State.doorsReady
      obtain h | h := hdoors
      · rw [decide_eq_false h, Bool.and_false, Bool.false_and]
      · rw [decide_eq_false h, Bool.and_false]
    unfold State.prepared
    simp only [hready, Bool.false_and]
  unfold State.runStep
  rw [hst]
  simp only [hnot, Bool.false_eq_true, if_false]
  split <;> rfl

/-- What PREPARING sets at its entry, and what it leaves (R65, R80, R82). -/
structure Prepares (s : State) (mode : Mode) (dir : Dir) (target : Option Stop) (served : List Ident)
    (t : State) : Prop where
  state : t.run.state = .preparing
  counter : t.run.counter = s.run.counter + 1
  prepareDue : t.run.prepareDue = some (s.time + ms (s.settings.prepareS.toNat * 1000))
  creepDue : t.run.creepDue = if mode = .creep then some (s.time + ms 300) else none
  record : ∃ r, t.run.record = some r ∧ r.number = s.run.counter + 1 ∧ r.mode = mode ∧ r.dir = dir
    ∧ r.target = target ∧ r.served = served ∧ r.merged = false ∧ r.frozen = none
    ∧ r.origin = s.originStop
  held : ∀ x, target = some x → ∃ h, t.target = some h ∧ h.stop = x
  noTarget : target = none → t.target = s.target
  queue : t.queue = s.queue.map fun e => { e with left := false }
  brk : t.brk = s.brk
  faults : t.faults = s.faults
  shuttle : t.shuttle = s.shuttle
  links : t.links = s.links
  vRef : t.prof.vRef = 0
  outer : Outer s t

theorem State.enterPreparing_prepares (s : State) (mode : Mode) (dir : Dir) (target : Option Stop)
    (served : List Ident) : Prepares s mode dir target served (s.enterPreparing mode dir target served) := by
  have houter : Outer s (s.enterPreparing mode dir target served) :=
    (s.enterPreparing_settles mode dir target served).outer
  cases target with
  | none =>
    exact ⟨rfl, rfl, rfl, rfl, ⟨_, rfl, rfl, rfl, rfl, rfl, rfl, rfl, rfl, rfl⟩, fun _ h => (by cases h),
      fun _ => rfl, rfl, rfl, rfl, rfl, rfl, rfl, houter⟩
  | some x =>
    exact ⟨rfl, rfl, rfl, rfl, ⟨_, rfl, rfl, rfl, rfl, rfl, rfl, rfl, rfl, rfl⟩,
      fun y h => ⟨_, rfl, (State.targetFor_stop _ x _).trans (Option.some.inj h)⟩, fun h => (by cases h), rfl, rfl,
      rfl, rfl, rfl, rfl, houter⟩

/-- A standing state at rest stays so at the entry into PREPARING. -/
theorem State.AtRest.enterPreparing {s : State} (h : s.AtRest) (hu : s.run.state.unsupervised = true)
    (mode : Mode) (dir : Dir) (target : Option Stop) (served : List Ident) :
    (s.enterPreparing mode dir target served).AtRest := by
  obtain ⟨hd, hs⟩ := RunState.unsupervised_alike hu
  have hcleared : s.clearMarks.AtRest := h.like rfl rfl rfl rfl
  have hentered := hcleared.enter (st := .preparing) none none hd.symm hs.symm
  cases target <;> exact hentered.like rfl rfl rfl rfl

/-- A line parked at rest whose arbitration chooses a run stands in PREPARING while a car's doors are not
reported locked (R61, R65, R83). -/
theorem State.AtRest.settle_prepares {s : State} (h : s.AtRest) (hp : s.run.state = .parked)
    (ha : s.run.arbitrate = true) {x : Stop} {mode : Mode} {dir : Dir}
    (hmay : (s.modRun fun r => { r with arbitrate := false }).mayArbitrate = true)
    (hc : (s.modRun fun r => { r with arbitrate := false }).choose = .run x mode dir)
    (hdoors : s.recs.car.one.doors ≠ .closedLocked ∨ s.recs.car.two.doors ≠ .closedLocked) :
    Prepares s mode dir (some x) (s.servedFor x) s.settle := by
  have hrest : (s.modRun fun r => { r with arbitrate := false }).AtRest := h.like rfl rfl rfl rfl
  have hprepares := State.enterPreparing_prepares (s.modRun fun r => { r with arbitrate := false }) mode dir
    (some x) (s.servedFor x)
  have hround : s.round
      = (s.modRun fun r => { r with arbitrate := false }).enterPreparing mode dir (some x) (s.servedFor x) := by
    rw [h.round, State.runStep_arbitrates hp ha, State.arbitrate_may hmay, hc]
    rfl
  have hprep := hrest.enterPreparing (by show s.run.state.unsupervised = true; rw [hp]; rfl) mode dir (some x)
    (s.servedFor x)
  generalize (s.modRun fun r => { r with arbitrate := false }).enterPreparing mode dir (some x) (s.servedFor x)
    = v at hprepares hround hprep
  have hstep : v.runStep = v := by
    refine State.runStep_preparing hprepares.state ?_
    rw [hprepares.outer.recs]
    exact hdoors
  rw [State.settle_round hround hprep hstep]
  exact { hprepares with outer := (s.modRun_settles _).outer.trans hprepares.outer }

/-! ## A run request in PARKED -/

/-- The checks of a run request on a line that is ready for one, with room in the queue (R57). -/
theorem runRefusal_none {s : State} (hlocked : s.store.commissioning = .locked)
    (href : s.reck.referenced = true) (hedit : s.store.staging = none) (hidle : s.store.cycle = .idle)
    (hp : s.run.state = .parked) {known : Bool} (hroom : s.queue.length < 6) :
    runRefusal s true known = none := by
  have hstate : ¬ (s.run.state = .faultStopping ∨ s.run.state = .faultHeld) := by
    rw [hp]
    rintro (h | h) <;> cases h
  have hreferenced : ¬ s.reck.referenced = false := by
    rw [href]
    exact Bool.noConfusion
  have hclosed : ¬ s.store.staging.isSome = true := by
    rw [hedit]
    exact Bool.noConfusion
  have hfits : ¬ (known = false ∧ 6 ≤ s.queue.length) := fun h => absurd h.2 (by omega)
  unfold runRefusal
  rw [if_neg (not_not.2 hlocked), if_neg hreferenced, if_neg hclosed, if_neg (not_not.2 hidle), if_neg hstate,
    if_neg Bool.noConfusion, if_neg hfits]

/-- The conditions of arbitration (R61). -/
theorem State.mayArbitrate_of {s : State} (hp : s.run.state = .parked) (hstop : s.stopDemanded = false)
    (hedit : s.store.staging = none) (hidle : s.store.cycle = .idle) (hup : s.linkUp .console = true)
    (hlocked : s.store.commissioning = .locked) (href : s.reck.referenced = true) :
    s.mayArbitrate = true := by
  have hclosed : s.store.editOpen = false := by rw [Store.editOpen, hedit]; rfl
  have hbusy : s.store.busy = false := Bool.eq_false_iff.2 fun h => Store.busy_iff.1 h hidle
  unfold State.mayArbitrate
  simp only [hp, hstop, hclosed, hbusy, hup, hlocked, href, decide_true, Bool.not_false, Bool.and_self]

/-- A call taken in PARKED is not tested for merging, and is accepted (R59, R61, R66). -/
theorem State.takeRunRequest_parked {s : State} (hp : s.run.state = .parked) (id : Ident) (side : Side) :
    s.takeRunRequest id side = ((s.takeCall id side).wantArbitration, { code := .accepted }) := by
  have htest : s.mergeTested id.stop = false := by
    unfold State.mergeTested
    split
    · simp only [hp, decide_eq_false (show ¬ RunState.parked = .running from RunState.noConfusion),
        Bool.and_false, Bool.false_and]
    · rfl
  unfold State.takeRunRequest
  rw [htest]
  simp only [Bool.false_and, Bool.false_eq_true, if_false, State.takenReply, hp, or_true, if_true]

/-- The state in which a call taken in PARKED with an empty queue is arbitrated (R59, R61). -/
def State.callTaken (s : State) (id : Ident) (side : Side) : State :=
  { s with
    queue := [⟨id, side, false⟩]
    run := { s.run with record := s.run.record.map (RunRecord.serve id), arbitrate := true } }

theorem State.takeCall_parked {s : State} (hp : s.run.state = .parked) (hq : s.queue = []) (id : Ident)
    (side : Side) : (s.takeCall id side).wantArbitration = s.callTaken id side := by
  have hnone : s.queued id = false := by rw [State.queued, hq]; rfl
  have hqueue : s.queueWith id side = [⟨id, side, false⟩] := by
    rw [State.queueWith, hnone, hq]
    rfl
  have hrecord : s.recordWith id = s.run.record.map (RunRecord.serve id) := by
    rw [State.recordWith, hnone]
    rfl
  have hmark : (s.run.arbitrate || decide (s.run.state = .parked)) = true := by
    rw [decide_eq_true hp, Bool.or_true]
  rw [State.takeCall_with, hqueue, hrecord]
  exact congrArg (fun b : Bool => ({ s with
    queue := [⟨id, side, false⟩]
    run := { s.run with record := s.run.record.map (RunRecord.serve id), arbitrate := b } } : State)) hmark

/-- Settles O41: the entry is taken and its run chosen, and PREPARING waits for car 1's doors. -/
theorem runRequestStartsRun : Obligations.RunRequestStartsRun := by
  intro dt tag x stop s hheld hh hrest hp hq hstop hlocked href hedit hidle hx hup hdoors hstand
  have hcand : runCandidate [tag, 1, x] = some (⟨.console, .stop, stop⟩, .both) := by
    rw [runCandidate_eq, runFields, hx]
    rfl
  have hanswer : (s.called dt .console).answer .console .run [tag, 1, x]
      = (((s.called dt .console).callTaken ⟨.console, .stop, stop⟩ .both).settle, { code := .accepted }) := by
    show (s.called dt .console).answerRun (runCandidate [tag, 1, x]) = _
    have hfew : (s.called dt .console).queue.length < 6 := by
      show s.queue.length < 6
      rw [hq]
      exact Nat.succ_pos 5
    rw [hcand, State.answerRun_taken (s := s.called dt .console)
        (runRefusal_none hlocked href hedit hidle hp hfew),
      State.takeRunRequest_parked (s := s.called dt .console) hp,
      State.takeCall_parked (s := s.called dt .console) hp hq]
    exact congrArg (fun u => (u, _)) (if_pos hp)
  have hsends := State.event_call_sends hheld hh dt rfl rfl rfl hanswer
  have hcalled : ((s.called dt .console).callTaken ⟨.console, .stop, stop⟩ .both).AtRest :=
    (hrest.advance dt).like rfl rfl rfl rfl (hup := State.called_up s dt .console)
  have hmay : (((s.called dt .console).callTaken ⟨.console, .stop, stop⟩ .both).modRun fun r =>
      { r with arbitrate := false }).mayArbitrate = true :=
    State.mayArbitrate_of hp hstop hedit hidle ((State.called_up s dt .console _).trans hh.1) hlocked href
  have hstar (y : Stop) : (((s.called dt .console).callTaken ⟨.console, .stop, stop⟩ .both).modRun fun r =>
      { r with arbitrate := false }).starOf y = s.starOf y := by
    refine State.starOf_both (s := s)
      (t := ((s.called dt .console).callTaken ⟨.console, .stop, stop⟩ .both).modRun fun r =>
        { r with arbitrate := false }) (fun e he => ?_) (fun e he => ?_) ?_ rfl rfl rfl y
    · rw [hq] at he
      cases he
    · rw [List.mem_singleton.1 he]
    · show (s.run.record.map (RunRecord.serve ⟨.console, .stop, stop⟩)).bind (·.frozen) = _
      cases s.run.record with
      | none => rfl
      | some r =>
        show (RunRecord.serve _ r).frozen = r.frozen
        unfold RunRecord.serve
        split <;> rfl
  have hchoose := State.choose_single
    (s := ((s.called dt .console).callTaken ⟨.console, .stop, stop⟩ .both).modRun fun r =>
      { r with arbitrate := false })
    (id := ⟨.console, .stop, stop⟩) rfl rfl ((State.called_up s dt .console _).trans hup) (by
      unfold State.standAt
      rw [hstar]
      exact hstand)
  have hprepares := hcalled.settle_prepares hp rfl hmay hchoose (.inl hdoors)
  have hserved : ((s.called dt .console).callTaken ⟨.console, .stop, stop⟩ .both).servedFor stop
      = [⟨.console, .stop, stop⟩] := by
    show ([⟨⟨.console, .stop, stop⟩, .both, false⟩].filter fun e : Entry => decide (e.id.stop = stop)).map _ = _
    simp
  have hdir : (((s.called dt .console).callTaken ⟨.console, .stop, stop⟩ .both).modRun fun r =>
      { r with arbitrate := false }).dirToward stop = if s.reck.sample.s < s.starOf stop then .up else .down := by
    unfold State.dirToward
    rw [hstar]
    rfl
  rw [hserved, hdir] at hprepares
  have hconsole := State.reply_link (dt := dt) (p := .console) hprepares.links MsgType.run.code [tag, 1, x]
    { code := .accepted }
  have hqueue := hprepares.queue
  have hdue := hprepares.prepareDue
  obtain ⟨r, hr, hnumber, hmode, hdir', htarget, hserved', hmerged, hfrozen, -⟩ := hprepares.record
  obtain ⟨h, hh', hstop'⟩ := hprepares.held stop rfl
  have hbrk := hprepares.brk
  have hcounter := hprepares.counter
  have hstate := hprepares.state
  generalize ((s.called dt .console).callTaken ⟨.console, .stop, stop⟩ .both).settle = v at *
  refine ⟨_, rfl, hsends.state.trans hstate, hsends.counter.trans hcounter, ?_, hsends.queue.trans hqueue,
    ⟨r, (congrArg RunControl.record hsends.run :).trans hr, hnumber, hmode, hdir', htarget, hserved', hmerged,
      hfrozen⟩, ⟨h, hsends.target.trans hh', hstop'⟩, hsends.brk.trans hbrk, hsends.console.trans hconsole⟩
  refine ((congrArg RunControl.prepareDue hsends.run :).trans hdue).trans (congrArg some ?_)
  show s.time + dt + s.settings.prepareS.toNat * 1000 * 1000 = _
  omega

end Sys2Proof.Machine
end

section
/-!
Cancels, SUSPEND and RESUME.
-/

namespace Sys2Proof.Machine

open Sys2Proof

set_option Elab.async false

/-! ## The removal of entries -/

/-- Removing entries changes queue and served-entry list alone (R68). -/
theorem State.removeEntries_eq (s : State) (gone : Entry → Bool) : s.removeEntries gone
    = { s with
        queue := s.queue.filter fun e => !gone e
        run := { s.run with
          record := s.run.record.map fun r =>
            { r with served := r.served.filter fun id => !((s.queue.filter gone).map (·.id)).contains id } } } :=
  rfl

/-- A cancel outside PARKED changes no field of a command message (R68, R187). -/
theorem State.removeEntries_alike {s t : State} (h : AlikeTriggers s t) (gone : Entry → Bool) :
    AlikeTriggers s (t.removeEntries gone) where
  state := h.state
  stop := h.stop
  err := h.err
  next := by
    rw [State.removeEntries_eq, Option.map_map]
    exact h.next
  approaching := h.approaching
  rail := h.rail
  active := h.active
  up := h.up

/-- A state that a frame has reached is as before in all that the command messages are formed from. -/
theorem State.called_alike (s : State) (dt : Nat) (p : Party) : AlikeTriggers s (s.called dt p) :=
  ⟨rfl, rfl, rfl, rfl, rfl, rfl, rfl, State.called_up s dt p⟩

/-- Outside PARKED a cancel takes no arbitration (R61). -/
theorem State.arbitrating_moving {s : State} (h : s.run.state ≠ .parked) : s.arbitrating = s := if_neg h

/-- In PARKED what arbitration leaves of the queue was there before it (R61, R68). -/
theorem State.arbitrating_parked {s : State} (h : s.run.state = .parked) :
    s.arbitrating = s.wantArbitration.settle := if_pos h

theorem State.arbitrating_queue (s : State) :
    (s.arbitrating.queue.map (·.id)).Sublist (s.queue.map (·.id)) := by
  unfold State.arbitrating
  split
  · exact (State.settle_settles _).queue
  · exact List.Sublist.refl _

/-- After a cancel no entry of an identity that it names is left, and none is added (R68). -/
theorem State.removeEntries_arbitrating (s : State) (named : Ident → Bool) :
    (∀ e ∈ (s.removeEntries fun e => named e.id).arbitrating.queue, named e.id = false)
      ∧ (((s.removeEntries fun e => named e.id).arbitrating.queue.map (·.id)).Sublist (s.queue.map (·.id)))
      ∧ (s.removeEntries fun e => named e.id).arbitrating.store = s.store := by
  have hsub := (s.removeEntries fun e => named e.id).arbitrating_queue
  refine ⟨fun e he => ?_, hsub.trans (List.filter_sublist.map _), State.arbitrating_store _⟩
  obtain ⟨e', he', hid⟩ := List.mem_map.1 (hsub.subset (List.mem_map_of_mem he))
  have hkept := (List.mem_filter.1 he').2
  rw [← hid]
  simpa using hkept

section
variable {s : State} (hr : s.Ready) (hh : s.Hears .console) (dt : Nat)
include hr hh

/-- A cancel outside PARKED: the REPLY is handed over, and queue and record lose the entries (R68). -/
theorem State.event_cancel (hp : s.run.state ≠ .parked) {pl : List Byte} {gone : Entry → Bool}
    (hl : MsgType.cancel.lengthOk pl = true)
    (ha : (s.called dt .console).answer .console .cancel pl
      = (((s.called dt .console).removeEntries gone).arbitrating, { code := .accepted })) :
    s.event dt (State.hear .console MsgType.cancel.code pl)
      = { s.answered dt .console 0x11 (tagOf pl) { code := .accepted } with
          queue := s.queue.filter fun e => !gone e
          run := { s.run with
            record := s.run.record.map fun r =>
              { r with
                served := r.served.filter fun id => !((s.queue.filter gone).map (·.id)).contains id } } } := by
  rw [State.arbitrating_moving (s := (s.called dt .console).removeEntries gone) hp] at ha
  rw [State.event_call_alike hr.1 hh dt rfl rfl hl ha hr.2
    (State.removeEntries_alike (State.called_alike s dt .console) gone)]
  rfl

/-- A cancel in PARKED, up to the arbitration that follows (R61, R68). -/
theorem State.event_cancelParked {pl : List Byte} {named : Ident → Bool}
    (hl : MsgType.cancel.lengthOk pl = true)
    (ha : (s.called dt .console).answer .console .cancel pl
      = (((s.called dt .console).removeEntries fun e => named e.id).arbitrating, { code := .accepted })) :
    (∀ e ∈ (s.event dt (State.hear .console MsgType.cancel.code pl)).queue, named e.id = false)
      ∧ (((s.event dt (State.hear .console MsgType.cancel.code pl)).queue.map (·.id)).Sublist
        (s.queue.map (·.id)))
      ∧ (s.event dt (State.hear .console MsgType.cancel.code pl)).store = s.store := by
  have hsends := State.event_call_sends hr.1 hh dt rfl rfl hl ha
  have hleft := (s.called dt .console).removeEntries_arbitrating named
  rw [hsends.queue, hsends.store]
  exact hleft

end

/-- A cancel is delivered by its scope (R68, R179). -/
theorem State.answer_cancelEntry (s : State) (tag x : Byte) :
    s.answer .console .cancel [tag, 1, x] = s.answerCancelEntry (runStop x) := by
  show s.answerCancelEntry (Stop.ofCode x.toNat) = _
  rw [Stop.ofCode_byte]

/-- Settles O42: by scope, and by whether the cancel is an arbitration event. -/
theorem cancelRemovesConsoleCalls : Obligations.CancelRemovesConsoleCalls := by
  intro dt tag x y s hr hh left ofConsole
  have hentry {stop : Stop} (hx : runStop x = some stop) :
      (s.called dt .console).answer .console .cancel [tag, 1, x]
        = (((s.called dt .console).removeEntries fun e =>
            decide (e.id.caller = .console) && decide (e.id.stop = stop)).arbitrating,
          { code := .accepted }) := by
    rw [State.answer_cancelEntry, hx]
    rfl
  have hall : (s.called dt .console).answer .console .cancel [tag, 2, y]
      = (((s.called dt .console).removeEntries fun e => decide (e.id.caller = .console)).arbitrating,
        { code := .accepted }) := rfl
  refine ⟨fun hx => ?_, fun stop hx hp => ?_, fun hp => ?_, fun stop hx hp => ⟨_, rfl, ?_⟩,
    fun hp => ⟨_, rfl, ?_⟩⟩
  · refine congrArg _ (State.event_refused hr hh dt (t := .cancel) rfl rfl rfl ?_)
    rw [State.answer_cancelEntry, hx]
    rfl
  · exact congrArg _ (State.event_cancel hr hh dt hp rfl (hentry hx))
  · exact congrArg _ (State.event_cancel hr hh dt hp rfl hall)
  · obtain ⟨hnone, hsub, hstore⟩ := State.event_cancelParked hr hh dt
      (named := fun id => decide (id.caller = .console) && decide (id.stop = stop)) rfl (hentry hx)
    refine ⟨fun e he hnamed => ?_, hsub, hstore⟩
    have hn := hnone e he
    simp [hnamed.1, hnamed.2] at hn
  · obtain ⟨hnone, hsub, hstore⟩ := State.event_cancelParked hr hh dt
      (named := fun id => decide (id.caller = .console)) rfl hall
    exact ⟨fun e he => of_decide_eq_false (hnone e he), hsub, hstore⟩

/-! ## The cancel of a run -/

/-- A scope that is none of the three (R68). -/
theorem State.answer_cancelOther (s : State) (tag x : Byte) {z : Byte} (h1 : z ≠ 1) (h2 : z ≠ 2)
    (h3 : z ≠ 3) : s.answer .console .cancel [tag, z, x] = s.refuse .badValue := by
  have n1 : z.toNat ≠ 1 := fun h => h1 ((byte_code z (n := 1) (by omega)).1 h)
  have n2 : z.toNat ≠ 2 := fun h => h2 ((byte_code z (n := 2) (by omega)).1 h)
  have n3 : z.toNat ≠ 3 := fun h => h3 ((byte_code z (n := 3) (by omega)).1 h)
  show s.answerCancel [tag, z, x] = _
  have hbyte : byteAt [tag, z, x] 1 = z.toNat := rfl
  unfold State.answerCancel
  rw [hbyte]
  split
  next h => exact absurd h n1
  next h => exact absurd h n2
  next h => exact absurd h n3
  next => rfl

/-- A state at rest stays so after a frame on an UP link. -/
theorem State.AtRest.called {s : State} (h : s.AtRest) (dt : Nat) (p : Party) : (s.called dt p).AtRest :=
  (h.advance dt).like rfl rfl rfl rfl (hup := State.called_up s dt p)

/-- Settles O43: the run's cancel parks the line, where arbitration finds nothing. -/
theorem cancelRunParks : Obligations.CancelRunParks := by
  intro dt tag z x s hr hh
  refine ⟨fun h1 h2 h3 => ?_, fun hs => ?_, fun hs hrest hold hshut => ?_⟩
  · exact congrArg _ (State.event_refused hr hh dt (t := .cancel) rfl rfl rfl
      (State.answer_cancelOther _ tag x h1 h2 h3))
  · have hrefused : (s.called dt .console).answer .console .cancel [tag, 3, x]
        = (s.called dt .console, { code := .wrongState }) := if_neg hs
    exact congrArg _ (State.event_refused hr hh dt rfl rfl rfl hrefused)
  · have hparked : (s.called dt .console).enterParked.AtRest :=
      (hrest.called dt .console).enterParked (by show s.run.state.unsupervised = true; rw [hs]; rfl)
    have hnone : (s.called dt .console).enterParked.choose = .nothing := by
      refine State.choose_nothing ?_ hshut
      have heligible : (s.called dt .console).enterParked.eligible = s.eligible := by
        funext e
        unfold State.eligible
        exact congrArg (fun b => !e.left && !(decide (e.id.stop = .loop) && !b)) (State.called_up s dt .console _)
      unfold State.oldestEligible
      rw [heligible]
      exact hold
    have hanswer : (s.called dt .console).answer .console .cancel [tag, 3, x]
        = ((s.called dt .console).enterParked.settle, { code := .accepted }) := if_pos hs
    rw [hparked.settle_parked rfl hnone] at hanswer
    have hsends := State.event_call_sends hr.1 hh dt rfl rfl rfl hanswer
    have hconsole := State.reply_link (s := s) (dt := dt) (p := .console)
      (u := (s.called dt .console).enterParked.modRun fun r => { r with arbitrate := false }) rfl
      MsgType.cancel.code [tag, 3, x] { code := .accepted }
    exact ⟨_, rfl, hsends.state, (congrArg RunControl.record hsends.run :), hsends.counter, hsends.queue,
      hsends.shuttle, hsends.target, (congrArg Profile.vRef hsends.prof :), hsends.brk, hsends.faults,
      hsends.store, hsends.console.trans hconsole⟩

/-! ## SUSPEND and RESUME -/

/-- No condition of a moving run would rise, so a standing state at rest stays so in RELEASING (R90, R160). -/
theorem State.AtRest.enterMoving {s : State} (h : s.AtRest) (hu : s.run.state.unsupervised = true)
    (hc : s.ClearToMove) : (s.enterState .releasing).AtRest := by
  obtain ⟨hdoor, -⟩ := RunState.unsupervised_alike hu
  obtain ⟨hcurve, hlimit⟩ := hc.slow
  have hdoors (k : Car) : (s.enterState .releasing).doorNotLocked k = s.doorNotLocked k := by
    have hshut : (s.enterState .releasing).doorNotLocked k = false := by
      show (true && match (s.recs.car.get k).doors with
        | .closed | .opened => true
        | .closedLocked | .unknown => false) = false
      rcases hc.doors k with h | h <;> rw [h] <;> rfl
    rw [hshut, State.doorNotLocked, hdoor, Bool.false_and]
  have hgates : (s.enterState .releasing).loopGateOpen = s.loopGateOpen := by
    have hshut : (s.enterState .releasing).loopGateOpen = false := by
      show (true && s.linkUp .loopStation
        && (decide (s.recs.loop.east = .opened) || decide (s.recs.loop.west = .opened))) = false
      cases hup : s.linkUp .loopStation with
      | false => rfl
      | true =>
        obtain ⟨he, hw⟩ := hc.gates hup
        rw [decide_eq_false he, decide_eq_false hw]
        rfl
    rw [hshut, State.loopGateOpen, hdoor, Bool.false_and, Bool.false_and]
  have hdrive : (s.enterState .releasing).driveFault = s.driveFault := by
    have hready : (s.enterState .releasing).driveFault = false := by
      show (true && (!s.recs.drive.ready || !s.out 13)) = false
      rw [hc.ready, hc.line]
      rfl
    rw [hready, State.driveFault, hdoor, Bool.false_and]
  refine ⟨State.takeSources_still h.slots (fun _ => rfl) rfl rfl rfl, h.wind, h.noFailover, h.noReturn,
    h.noReference, fun hs => (by cases hs), ?_⟩
  show s.conds = _
  rw [h.conds]
  unfold State.holding
  congr 1
  funext c
  cases c
  case overspeedCurve =>
    show s.prof.curve = (s.prof.curve && true)
    rw [Bool.and_true]
  case overspeedLimit =>
    show s.prof.limit = (s.prof.limit && true)
    rw [Bool.and_true]
  case driveFault => exact hdrive.symm
  case doorNotLocked k => exact (hdoors k).symm
  case loopGateOpen => exact hgates.symm
  all_goals rfl

/-- A RELEASE order energises a brake's output, and a brake that is not open is not yet released (R142). -/
theorem Brake.release_output (b : Brake) (now deadline : Nat) (isOpen : Bool) :
    (b.release now deadline isOpen).output = true := by
  rcases b with ⟨st, due, ended⟩
  cases st <;> cases isOpen <;> rfl

theorem Brake.release_applied {b : Brake} (h : b.state = .applied) (now deadline : Nat) (isOpen : Bool) :
    (b.release now deadline isOpen).state = if isOpen = true then .released else .releasing := by
  rcases b with ⟨st, due, ended⟩
  subst h
  cases isOpen <;> rfl

/-- From applied brakes that are not both open RELEASING stands (R87, R142). -/
theorem State.runStep_releasing {s : State} (hs : s.brk.service.state = .applied)
    (he : s.brk.emergency.state = .applied) (hopen : ¬ (s.serviceOpen = true ∧ s.emergencyOpen = true)) :
    s.enterReleasing.runStep = s.enterReleasing := by
  have hnot : s.enterReleasing.bothBrakes .released = false := by
    have hservice := Brake.release_applied hs s.time s.releaseDeadline s.serviceOpen
    have hemergency := Brake.release_applied he s.time s.releaseDeadline s.emergencyOpen
    show (decide ((s.brk.service.release s.time s.releaseDeadline s.serviceOpen).state = .released)
      && decide ((s.brk.emergency.release s.time s.releaseDeadline s.emergencyOpen).state = .released)) = false
    rw [hservice, hemergency]
    cases hso : s.serviceOpen <;> cases heo : s.emergencyOpen
    case true.true => exact absurd ⟨hso, heo⟩ hopen
    all_goals rfl
  have hstep : s.enterReleasing.runStep
      = if s.enterReleasing.bothBrakes .released then s.enterReleasing.enterRunning else s.enterReleasing := rfl
  rw [hstep, hnot]
  rfl

/-- A SUSPEND of a run with a target (R96). -/
theorem State.answerSuspend_running {s : State} {r : RunRecord} (hs : s.run.state = .running)
    (hr : s.run.record = some r) (hm : r.mode ≠ .creep) :
    s.answerSuspend = (s.enterState .suspending).accept := by
  have hserving : s.servingRun = some r := by
    unfold State.servingRun
    rw [hr]
    exact if_neg hm
  unfold State.answerSuspend
  rw [hs]
  simp only [hserving]

/-- Settles O44: by the run state and, in RUNNING, by the mode of the run. -/
theorem suspendAndResume : Obligations.SuspendAndResume := by
  intro dt tag s hr hh
  refine ⟨fun r hs hrec hm => ?_, fun r hs hrec hm => ?_, fun hs => ?_, fun hs hs' => ?_,
    fun hs hrest hclear hopen hserv hemer => ?_, fun hs => ?_⟩
  · have hanswer : (s.called dt .console).answer .console .suspend [tag]
        = ((s.called dt .console).enterState .suspending, { code := .accepted }) :=
      State.answerSuspend_running (s := s.called dt .console) hs hrec hm
    have hsends := State.event_call_sends hr.1 hh dt rfl rfl rfl hanswer
    have hconsole := State.reply_link (s := s) (dt := dt) (p := .console)
      (u := (s.called dt .console).enterState .suspending) rfl MsgType.suspend.code [tag] { code := .accepted }
    exact ⟨_, rfl, hsends.state, (congrArg RunControl.record hsends.run :), hsends.target,
      (congrArg Profile.vRef hsends.prof :), (congrArg Profile.ctx hsends.prof :), hsends.brk, hsends.queue,
      hsends.faults, hsends.store, hsends.console.trans hconsole⟩
  · have hserving : (s.called dt .console).servingRun = none := by
      unfold State.servingRun
      rw [show (s.called dt .console).run.record = some r from hrec]
      exact if_pos hm
    have hrefused : (s.called dt .console).answer .console .suspend [tag]
        = (s.called dt .console, { code := .wrongState }) := by
      show (s.called dt .console).answerSuspend = _
      unfold State.answerSuspend
      rw [show (s.called dt .console).run.state = .running from hs]
      simp only [hserving]
      rfl
    exact congrArg _ (State.event_refused hr hh dt rfl rfl rfl hrefused)
  · have hrefused : (s.called dt .console).answer .console .suspend [tag]
        = (s.called dt .console, { code := .tooLate }) := by
      show (s.called dt .console).answerSuspend = _
      unfold State.answerSuspend
      rw [show (s.called dt .console).run.state = .finalApproach from hs]
      rfl
    exact congrArg _ (State.event_refused hr hh dt rfl rfl rfl hrefused)
  · have hrefused : (s.called dt .console).answer .console .suspend [tag]
        = (s.called dt .console, { code := .wrongState }) := by
      show (s.called dt .console).answerSuspend = _
      unfold State.answerSuspend
      split
      next h => exact absurd h hs
      next h => exact absurd h hs'
      next => rfl
    exact congrArg _ (State.event_refused hr hh dt rfl rfl rfl hrefused)
  · have hclear' : (s.called dt .console).ClearToMove :=
      { doors := hclear.doors, ready := hclear.ready, line := hclear.line, slow := hclear.slow
        gates := fun hup => hclear.gates ((State.called_up s dt .console _).symm.trans hup) }
    have hreleasing : (s.called dt .console).enterReleasing.AtRest :=
      ((hrest.called dt .console).enterMoving (by show s.run.state.unsupervised = true; rw [hs]; rfl)
        hclear').like rfl rfl rfl rfl
    have hanswer : (s.called dt .console).answer .console .resume [tag]
        = ((s.called dt .console).enterReleasing.settle, { code := .accepted }) := if_pos hs
    rw [hreleasing.settle (State.runStep_releasing (s := s.called dt .console) hserv hemer hopen)] at hanswer
    have hsends := State.event_call_sends hr.1 hh dt rfl rfl rfl hanswer
    have hconsole := State.reply_link (s := s) (dt := dt) (p := .console)
      (u := (s.called dt .console).enterReleasing) rfl MsgType.resume.code [tag] { code := .accepted }
    have hbrk := hsends.brk
    refine ⟨_, rfl, hsends.state, (congrArg RunControl.record hsends.run :), hsends.target,
      (congrArg Profile.vRef hsends.prof :), (congrArg Profile.ctx hsends.prof :), ?_, ?_, ?_, hsends.queue,
      hsends.faults, hsends.store, hsends.console.trans hconsole⟩
    · rw [hbrk]
      rfl
    · rw [hbrk]
      exact Brake.release_output _ _ _ _
    · rw [hbrk]
      exact Brake.release_output _ _ _ _
  · have hrefused : (s.called dt .console).answer .console .resume [tag]
        = (s.called dt .console, { code := .wrongState }) := if_neg hs
    exact congrArg _ (State.event_refused hr hh dt rfl rfl rfl hrefused)

end Sys2Proof.Machine
end

section
/-!
CREEP: its checks, its refresh, and the start of a creep run.
-/

namespace Sys2Proof.Machine

open Sys2Proof

set_option Elab.async false

/-! ## The nearest stop ahead -/

/-- The least member of a list by a key: one of the list, with no member below it. -/
theorem leastBy_some {key : Stop → Int} {l : List Stop} {x : Stop} (h : leastBy key l = some x) :
    x ∈ l ∧ ∀ y ∈ l, key x ≤ key y := by
  induction l generalizing x with
  | nil => cases h
  | cons a l ih =>
    unfold leastBy at h
    cases hl : leastBy key l with
    | none =>
      rw [hl] at h
      cases h
      have hnil : l = [] := by
        cases l with
        | nil => rfl
        | cons b l =>
          unfold leastBy at hl
          split at hl
          · split at hl <;> cases hl
          · cases hl
      subst hnil
      simp
    | some z =>
      obtain ⟨hmem, hleast⟩ := ih hl
      rw [hl] at h
      simp only at h
      split at h
      next hlt =>
        cases h
        refine ⟨List.mem_cons_of_mem _ hmem, fun y hy => ?_⟩
        rcases List.mem_cons.1 hy with rfl | hy
        · exact hlt.le
        · exact hleast y hy
      next hge =>
        cases h
        refine ⟨List.mem_cons_self, fun y hy => ?_⟩
        rcases List.mem_cons.1 hy with rfl | hy
        · exact le_refl _
        · exact (not_lt.1 hge).trans (hleast y hy)

theorem leastBy_isSome {key : Stop → Int} {l : List Stop} (h : l ≠ []) : ∃ x, leastBy key l = some x := by
  cases l with
  | nil => exact absurd rfl h
  | cons a l =>
    unfold leastBy
    split
    · split <;> exact ⟨_, rfl⟩
    · exact ⟨_, rfl⟩

theorem Stop.mem_all (x : Stop) : x ∈ Stop.all := by cases x <;> decide

/-- How far a stop lies ahead of the latest published s in a direction (R99). -/
def State.beyond (s : State) (dir : Dir) (x : Stop) : Int := (s.starOf x - s.reck.sample.s) * dir.sign

/-- No stop strictly ahead: no creep target (R99). -/
theorem State.creepTarget_none {s : State} {dir : Dir} (h : ∀ x, s.beyond dir x ≤ s.window x) :
    s.creepTarget dir s.reck.sample.s = none := by
  have hnil : (Stop.all.filter fun y => decide (s.beyond dir y > s.window y)) = [] :=
    List.filter_eq_nil_iff.2 fun y _ hy => absurd (of_decide_eq_true hy) (not_lt.2 (h y))
  show leastBy (s.beyond dir) (Stop.all.filter fun y => decide (s.beyond dir y > s.window y)) = none
  rw [hnil]
  rfl

/-- With a stop strictly ahead the creep target is the nearest of them (R99). -/
theorem State.creepTarget_some {s : State} {dir : Dir} (h : ∃ x, s.window x < s.beyond dir x) :
    ∃ x, s.creepTarget dir s.reck.sample.s = some x ∧ s.window x < s.beyond dir x
      ∧ ∀ y, s.window y < s.beyond dir y → s.beyond dir x ≤ s.beyond dir y := by
  obtain ⟨z, hz⟩ := h
  have hmem (y : Stop) (hy : s.window y < s.beyond dir y) :
      y ∈ Stop.all.filter fun y => decide (s.beyond dir y > s.window y) :=
    List.mem_filter.2 ⟨y.mem_all, decide_eq_true hy⟩
  obtain ⟨x, hx⟩ := leastBy_isSome (key := s.beyond dir) (List.ne_nil_of_mem (hmem z hz))
  obtain ⟨hin, hleast⟩ := leastBy_some hx
  exact ⟨x, hx, of_decide_eq_true (List.mem_filter.1 hin).2, fun y hy => hleast y (hmem y hy)⟩

/-! ## The checks -/

theorem Dir.ofCode_byte (d : Byte) : Dir.ofCode d.toNat = creepDirection d := by
  have h1 : d.toNat = 1 ↔ d = 1 := byte_code d (by omega)
  have h2 : d.toNat = 2 ↔ d = 2 := byte_code d (by omega)
  unfold Dir.ofCode
  split <;> unfold creepDirection
  next h => rw [if_pos (h1.1 h)]
  next h => rw [if_neg fun e => absurd (h1.2 e) (by omega), if_pos (h2.1 h)]
  next n1 n2 => rw [if_neg fun e => n1 (h1.2 e), if_neg fun e => n2 (h2.2 e)]

/-- The checks of a CREEP: those before its direction, and its direction (R99). -/
theorem creepCheck_eq (s : State) (d : Byte) : creepCheck s d =
    match s.creepRefusal with
    | some c => some c
    | none => if creepDirection d = none then some .badValue else none := by
  have hfault : s.run.state.isFault = true ↔ s.run.state = .faultStopping ∨ s.run.state = .faultHeld := by
    cases s.run.state <;> simp [RunState.isFault]
  unfold creepCheck State.creepRefusal
  simp only [hfault, Store.busy_iff, Store.editOpen]
  repeat' split
  all_goals simp_all

theorem State.answerCreep_refused {s : State} {tag d : Byte} {c : ReplyCode} (h : creepCheck s d = some c) :
    s.answerCreep [tag, d] = s.refuse c := by
  have hdir : Dir.ofCode (byteAt [tag, d] 1) = creepDirection d := Dir.ofCode_byte d
  rw [creepCheck_eq] at h
  unfold State.answerCreep
  rw [hdir]
  cases hrefusal : s.creepRefusal with
  | some c' =>
    rw [hrefusal] at h
    cases h
    rfl
  | none =>
    rw [hrefusal] at h
    cases hd : creepDirection d with
    | none =>
      rw [hd] at h
      cases h
      rfl
    | some dir =>
      rw [hd] at h
      cases h

theorem State.answerCreep_checked {s : State} {tag d : Byte} {dir : Dir} (h : creepCheck s d = none)
    (hd : creepDirection d = some dir) : s.answerCreep [tag, d] = s.creepAllowed dir := by
  have hdir : Dir.ofCode (byteAt [tag, d] 1) = creepDirection d := Dir.ofCode_byte d
  rw [creepCheck_eq] at h
  unfold State.answerCreep
  rw [hdir, hd]
  cases hrefusal : s.creepRefusal with
  | some c' =>
    rw [hrefusal] at h
    cases h
  | none => rfl

/-- The run states in which a creep run's hold runs (R100). -/
theorem RunState.holdsCreep_iff {st : RunState} : st.holdsCreep = true
    ↔ st = .preparing ∨ st = .releasing ∨ st = .running ∨ st = .finalApproach := by
  cases st <;> simp [RunState.holdsCreep]

/-- CREEP during a creep run (R99, R100). -/
theorem State.creepAllowed_holds {s : State} {r : RunRecord} (hr : s.run.record = some r) (hm : r.mode = .creep)
    (hst : s.run.state.holdsCreep = true) (dir : Dir) : s.creepAllowed dir = s.creepRefresh r dir := by
  unfold State.creepAllowed
  rw [hr]
  exact if_pos ⟨hm, hst⟩

/-- CREEP with no creep run holding, outside PARKED (R99). -/
theorem State.creepAllowed_refused {s : State} (hp : s.run.state ≠ .parked)
    (h : ∀ r, ¬ (s.run.record = some r ∧ r.mode = .creep ∧ s.run.state.holdsCreep = true)) (dir : Dir) :
    s.creepAllowed dir = s.refuse .wrongState := by
  unfold State.creepAllowed
  cases hr : s.run.record with
  | none => exact if_neg hp
  | some r => exact if_neg fun hc => h r ⟨hr, hc.1, hc.2⟩

/-- CREEP in PARKED where no creep run may start (R99). -/
theorem State.creepAllowed_parked {s : State} (hp : s.run.state = .parked) {dir : Dir}
    (h : s.queue ≠ [] ∨ s.shuttle.active = true
      ∨ (s.reck.referenced = true ∧ ∀ x, s.beyond dir x ≤ s.window x)) :
    s.creepAllowed dir = s.refuse .wrongState := by
  have hparked : s.creepParked dir = s.refuse .wrongState := by
    unfold State.creepParked
    by_cases hbusy : s.queue ≠ [] ∨ s.shuttle.active = true
    · exact if_pos hbusy
    · obtain ⟨href, hnone⟩ := (or_assoc.2 h).resolve_left hbusy
      rw [if_neg hbusy, if_pos href, State.creepTarget_none hnone]
  unfold State.creepAllowed
  cases hr : s.run.record with
  | none => exact (if_pos hp).trans hparked
  | some r =>
    refine if_neg ?_
    rintro ⟨-, hst⟩
    rw [hp] at hst
    cases hst

/-- Settles O45: the checks, then by whether a creep run's hold runs. -/
theorem creepIsChecked : Obligations.CreepIsChecked := by
  intro dt tag d s hr hh
  have htold {c : ReplyCode} (ha : (s.called dt .console).answerCreep [tag, d]
      = (s.called dt .console).refuse c) :
      exec (.creep dt [tag, d]) s = .next (s.answered dt .console 0x14 tag { code := c }) :=
    congrArg _ (State.event_refused hr hh dt (t := .creep) (pl := [tag, d]) rfl rfl rfl ha)
  refine ⟨fun c hc => htold (State.answerCreep_refused (s := s.called dt .console) hc), fun dir hc hd => ?_⟩
  intro refused creeping
  have hchecked := State.answerCreep_checked (s := s.called dt .console) (tag := tag) hc hd
  have hholds {r : RunRecord} (h : creeping r) : (s.called dt .console).answerCreep [tag, d]
      = (s.called dt .console).creepRefresh r dir := by
    obtain ⟨hrec, hm, hst⟩ := h
    exact hchecked.trans (State.creepAllowed_holds (s := s.called dt .console) hrec hm
      (RunState.holdsCreep_iff.2 hst) dir)
  refine ⟨fun r hcreep hdir => ?_, fun r hcreep hdir => htold ((hholds hcreep).trans (if_neg hdir)),
    fun hp hnot => htold (hchecked.trans (State.creepAllowed_parked (s := s.called dt .console) hp hnot)),
    fun hp hnot => htold (hchecked.trans (State.creepAllowed_refused (s := s.called dt .console) hp
      (fun r h => hnot r ⟨h.1, h.2.1, RunState.holdsCreep_iff.1 h.2.2⟩) dir))⟩
  have hanswer : (s.called dt .console).answer .console .creep [tag, d]
      = ((s.called dt .console).modRun fun rc => { rc with creepDue := some (s.time + dt + ms 300) },
        { code := .accepted }) := (hholds hcreep).trans (if_pos hdir)
  have halike : AlikeTriggers s ((s.called dt .console).modRun fun rc =>
      { rc with creepDue := some (s.time + dt + ms 300) }) :=
    { State.called_alike s dt .console with }
  exact congrArg _ (State.event_call_alike hr.1 hh dt rfl rfl rfl hanswer hr.2 halike)

/-! ## The start of a creep run -/

/-- CREEP on an empty line parked (R99). -/
theorem State.creepAllowed_starts {s : State} (hp : s.run.state = .parked) (hr : s.run.record = none)
    (hq : s.queue = []) (hs : s.shuttle.active = false) (dir : Dir) : s.creepAllowed dir
      = if s.reck.referenced then
          match s.creepTarget dir s.reck.sample.s with
          | some x => s.startCreep dir (some x)
          | none => s.refuse .wrongState
        else s.startCreep dir none := by
  have hfree : ¬ (s.queue ≠ [] ∨ s.shuttle.active = true) := by
    rw [hq, hs]
    rintro (h | h)
    · exact h rfl
    · cases h
  unfold State.creepAllowed
  rw [hr]
  exact (if_pos hp).trans (if_neg hfree)

/-- A line parked at rest that starts a creep run stands in PREPARING while a car's doors are not locked
(R83, R99). -/
theorem State.AtRest.settle_creeps {s : State} (h : s.AtRest) (hp : s.run.state = .parked) (dir : Dir)
    (target : Option Stop)
    (hdoors : s.recs.car.one.doors ≠ .closedLocked ∨ s.recs.car.two.doors ≠ .closedLocked) :
    Prepares s .creep dir target [] (s.enterPreparing .creep dir target []).settle := by
  have hprepares := s.enterPreparing_prepares .creep dir target []
  have hrest := h.enterPreparing (by rw [hp]; rfl) .creep dir target []
  generalize s.enterPreparing .creep dir target [] = v at hprepares hrest
  have hstep : v.runStep = v := by
    refine State.runStep_preparing hprepares.state ?_
    rw [hprepares.outer.recs]
    exact hdoors
  rw [hrest.settle hstep]
  exact hprepares

/-- Settles O46: the run's target is the nearest stop ahead, and PREPARING waits for car 1's doors. -/
theorem creepStartsRun : Obligations.CreepStartsRun := by
  intro dt tag d dir s hheld hh hrest hc hd hp hrec hq hshut hdoors hahead
  have hchecked := State.answerCreep_checked (s := s.called dt .console) (tag := tag) hc hd
  rw [State.creepAllowed_starts (s := s.called dt .console) hp hrec hq hshut] at hchecked
  obtain ⟨target, hanswer, hunref, href⟩ : ∃ target : Option Stop,
      (s.called dt .console).answerCreep [tag, d]
        = (((s.called dt .console).enterPreparing .creep dir target []).settle, { code := .accepted })
      ∧ (s.reck.referenced = false → target = none)
      ∧ (s.reck.referenced = true → ∃ x, target = some x ∧ s.window x < s.beyond dir x
        ∧ ∀ y, s.window y < s.beyond dir y → s.beyond dir x ≤ s.beyond dir y) := by
    cases href : s.reck.referenced with
    | false =>
      exact ⟨none, hchecked.trans (if_neg (by show ¬ s.reck.referenced = true; rw [href]; exact Bool.noConfusion)),
        fun _ => rfl, fun h => by cases h⟩
    | true =>
      obtain ⟨x, hx, hwindow, hleast⟩ := State.creepTarget_some (hahead href)
      have hx' : (s.called dt .console).creepTarget dir (s.called dt .console).reck.sample.s = some x := hx
      rw [hx', if_pos (show (s.called dt .console).reck.referenced = true from href)] at hchecked
      exact ⟨some x, hchecked, fun h => (by cases h), fun _ => ⟨x, rfl, hwindow, hleast⟩⟩
  have hanswer' : (s.called dt .console).answer .console .creep [tag, d]
      = (((s.called dt .console).enterPreparing .creep dir target []).settle, { code := .accepted }) := hanswer
  have hsends := State.event_call_sends hheld hh dt rfl rfl rfl hanswer'
  have hprepares := (hrest.called dt .console).settle_creeps hp dir target (.inl hdoors)
  have horigin : s.reck.referenced = false → (s.called dt .console).originStop = none := fun h =>
    if_neg (by show ¬ s.reck.referenced = true; rw [h]; exact Bool.noConfusion)
  have hconsole := State.reply_link (dt := dt) (p := .console) hprepares.links MsgType.creep.code [tag, d]
    { code := .accepted }
  generalize ((s.called dt .console).enterPreparing .creep dir target []).settle = v at *
  obtain ⟨r, hr, hnumber, hmode, hdir, htarget, hserved, hmerged, hfrozen, horig⟩ := hprepares.record
  refine ⟨_, rfl, hsends.state.trans hprepares.state, hsends.counter.trans hprepares.counter, ?_,
    hsends.creepDue.trans hprepares.creepDue,
    ⟨r, (congrArg RunControl.record hsends.run :).trans hr, hnumber, hmode, hdir, hserved, hmerged, hfrozen,
      fun h => ⟨htarget.trans (hunref h), horig.trans (horigin h)⟩, fun h => ?_⟩, ?_,
    hsends.brk.trans hprepares.brk, hsends.faults.trans hprepares.faults,
    hsends.store.trans hprepares.outer.store, hsends.console.trans hconsole⟩
  · refine ((congrArg RunControl.prepareDue hsends.run :).trans hprepares.prepareDue).trans (congrArg some ?_)
    show s.time + dt + s.settings.prepareS.toNat * 1000 * 1000 = _
    omega
  · obtain ⟨x, hx, hwindow, hleast⟩ := href h
    obtain ⟨g, hg, hstop⟩ := hprepares.held x hx
    exact ⟨x, htarget.trans hx, hwindow, hleast, g, hsends.target.trans hg, hstop⟩
  · refine (hsends.queue.trans hprepares.queue).trans ?_
    show s.queue.map _ = []
    rw [hq]
    rfl

end Sys2Proof.Machine
end

section
/-!
The shuttle's requests.  An arbitration of a line at rest leaves it at rest, whatever movement it starts.
-/

namespace Sys2Proof.Machine

open Sys2Proof

set_option Elab.async false

/-! ## Moves that leave the line at rest -/

/-- The preconditions of PREPARING keep every condition of a moving run from rising (R83, R90, R160). -/
theorem State.AtRest.clearToMove {s : State} (h : s.AtRest) (hst : s.run.state = .preparing)
    (hp : s.prepared = true) : s.ClearToMove := by
  simp only [State.prepared, State.doorsReady, State.loopReady, State.driveReady, Bool.and_eq_true,
    decide_eq_true_eq] at hp
  obtain ⟨⟨⟨⟨⟨⟨⟨-, -⟩, hone⟩, htwo⟩, hloop⟩, ⟨-, hready⟩, hline⟩, -⟩, -⟩ := hp
  refine ⟨fun k => .inl ?_, fun hup => ?_, hready, hline, h.speed (by rw [hst]; rfl)⟩
  · cases k
    · exact hone
    · exact htwo
  · rw [if_pos hup, Bool.and_eq_true, decide_eq_true_eq, decide_eq_true_eq] at hloop
    obtain ⟨heast, hwest⟩ := hloop
    rw [heast, hwest]
    exact ⟨Gate.noConfusion, Gate.noConfusion⟩

/-- PREPARING left for RELEASING leaves the line at rest (R83, R84). -/
theorem State.AtRest.exitPreparing {s : State} (h : s.AtRest) (hst : s.run.state = .preparing)
    (hp : s.prepared = true) (r : RunRecord) : (s.exitPreparing r).AtRest := by
  have hclear := h.clearToMove hst hp
  have hgo (u : State) (hu : u.AtRest) (huc : u.ClearToMove) (hus : u.run.state = .preparing) :
      (u.createContext r).enterReleasing.AtRest := by
    have hc : (u.createContext r).AtRest := hu.like rfl rfl rfl rfl
    exact (hc.enterMoving (by show u.run.state.unsupervised = true; rw [hus]; rfl)
      ⟨huc.doors, huc.gates, huc.ready, huc.line, huc.slow⟩).like rfl rfl rfl rfl
  unfold State.exitPreparing
  simp only
  split
  all_goals
    refine hgo _ ?_ ?_ ?_
    · exact h.like rfl rfl rfl rfl
    · exact ⟨hclear.doors, hclear.gates, hclear.ready, hclear.line, hclear.slow⟩
    · exact hst

/-- An entry of STOP_OUTSIDE_WINDOW, in the set or of a class that stops nothing, demands no reaction of the Run
Controller (R93, R103). -/
theorem State.report_noReaction {s : State} {r : Report}
    (h : (s.store.active.classOf r.kind).rank = 0) :
    s.report r = if s.latchesEmergency [r] then ([r].foldl State.latch s).emergencyDemand
      else [r].foldl State.latch s := by
  have hstop : s.createsStop [r] = false := by
    simp [State.createsStop, h]
  unfold State.report State.takeReports
  simp only [hstop, Bool.false_eq_true, if_false]

/-- What such a report changes (R154, R163). -/
theorem State.report_sets {s : State} {r : Report} (h : (s.store.active.classOf r.kind).rank = 0) :
    ∃ f b, s.report r = { s with faults := f, brk := b } := by
  obtain ⟨f, hf⟩ := State.latches_eq [r] s
  rw [State.report_noReaction h, hf]
  split
  · unfold State.emergencyDemand
    rw [State.apply_eq]
    exact ⟨_, _, rfl⟩
  · exact ⟨_, s.brk, rfl⟩

/-! ## What an arbitration of a line at rest comes to -/

/-- A line at rest that stands parked, dwells with its timer running, or starts a run, where
STOP_OUTSIDE_WINDOW stops nothing. -/
structure State.Afoot (s : State) : Prop where
  rest : s.AtRest
  mild : (s.store.active.classOf .stopOutsideWindow).rank = 0
  state : s.run.state = .parked ∨ s.run.state = .preparing ∨ s.run.state = .releasing
    ∨ s.run.state = .running ∨ (s.run.state = .dwell ∧ s.run.dwellDue ≠ none)

/-- DWELL entered from PARKED leaves the line at rest and the shuttle as it is (R76, R93). -/
theorem State.AtRest.enterDwell {s : State} (h : s.AtRest) (hp : s.run.state = .parked)
    (hm : (s.store.active.classOf .stopOutsideWindow).rank = 0) (x : Stop) (served : List Ident) :
    (s.enterDwell x served).Afoot ∧ (s.enterDwell x served).shuttle.active = s.shuttle.active := by
  have hserve : (s.serveDwell x served (s.stopErrors x)).AtRest
      ∧ (s.serveDwell x served (s.stopErrors x)).run = s.run
      ∧ (s.serveDwell x served (s.stopErrors x)).store = s.store
      ∧ (s.serveDwell x served (s.stopErrors x)).shuttle.active = s.shuttle.active := by
    cases x <;> exact ⟨h.like rfl rfl rfl rfl, rfl, rfl, rfl⟩
  unfold State.enterDwell
  simp only
  generalize s.serveDwell x served (s.stopErrors x) = u at hserve
  obtain ⟨hu, hrun, hstore, hactive⟩ := hserve
  obtain ⟨hd, hs⟩ := RunState.unsupervised_alike (st := u.run.state) (by rw [hrun, hp]; rfl)
  have hentered (v : State) (hv : v.AtRest) (hvr : v.run.state = u.run.state) (hvs : v.store = s.store)
      (hva : v.shuttle.active = s.shuttle.active) (hdue : v.run.dwellDue ≠ none) :
      (v.enterState .dwell).Afoot ∧ (v.enterState .dwell).shuttle.active = s.shuttle.active := by
    refine ⟨⟨hv.enter none none (by rw [hvr, hd]; rfl) (by rw [hvr, hs]; rfl), ?_,
      .inr (.inr (.inr (.inr ⟨rfl, hdue⟩)))⟩, hva⟩
    show (v.store.active.classOf .stopOutsideWindow).rank = 0
    rw [hvs]
    exact hm
  have hdwell := hentered (u.modRun fun r =>
    { r with
      dwellStop := some x, dwellErr := s.stopErrors x
      dwellDue := some (s.time + ms (s.dwellMinimum.toNat * 1000)), record := none })
    (hu.like rfl rfl rfl rfl) rfl hstore hactive (Option.some_ne_none _)
  generalize State.enterState (u.modRun _) .dwell = w at hdwell ⊢
  obtain ⟨⟨hw, hwm, hws⟩, hwa⟩ := hdwell
  split
  · obtain ⟨f, b, hreport⟩ := State.report_sets (s := w)
      (r := { kind := .stopOutsideWindow, cars := outsideWindow (s.stopErrors x) (s.window x) }) hwm
    rw [hreport]
    exact ⟨⟨hw.like rfl rfl rfl rfl, hwm, hws⟩, hwa⟩
  · exact ⟨⟨hw, hwm, hws⟩, hwa⟩

/-- A move of the Run Controller on such a line leaves one, and the shuttle's flag. -/
theorem State.Afoot.runStep {s : State} (h : s.Afoot) :
    s.runStep.Afoot ∧ s.runStep.shuttle.active = s.shuttle.active := by
  obtain ⟨hrest, hmild, hst⟩ := h
  rcases hst with hst | hst | hst | hst | ⟨hst, hdue⟩
  · cases ha : s.run.arbitrate with
    | false =>
      rw [State.runStep_parked hst ha]
      exact ⟨⟨hrest, hmild, .inl hst⟩, rfl⟩
    | true =>
      have hu : (s.modRun fun r => { r with arbitrate := false }).AtRest := hrest.like rfl rfl rfl rfl
      rw [State.runStep_arbitrates hst ha]
      unfold State.arbitrate
      simp only
      split
      · unfold State.takeChoice
        split
        · exact ⟨⟨hu, hmild, .inl hst⟩, rfl⟩
        · exact hu.enterDwell hst hmild _ _
        · rename_i x mode dir _
          have hprep := State.enterPreparing_prepares (s.modRun fun r => { r with arbitrate := false }) mode dir
            (some x) (State.servedFor (s.modRun fun r => { r with arbitrate := false }) x)
          have hu' := hu.enterPreparing (by show s.run.state.unsupervised = true; rw [hst]; rfl) mode dir (some x)
            (State.servedFor (s.modRun fun r => { r with arbitrate := false }) x)
          refine ⟨⟨hu', ?_, .inr (.inl hprep.state)⟩, by rw [hprep.shuttle]; rfl⟩
          rw [hprep.outer.store]
          exact hmild
      · exact ⟨⟨hu, hmild, .inl hst⟩, rfl⟩
  · unfold State.runStep
    rw [hst]
    simp only
    split
    next r _ =>
      split
      next hready =>
        have hexit := hrest.exitPreparing hst hready r
        have hsettles := s.exitPreparing_settles r
        have hstate : (s.exitPreparing r).run.state = .releasing := by
          unfold State.exitPreparing
          simp only
          split <;> rfl
        have hactive : (s.exitPreparing r).shuttle.active = s.shuttle.active := by
          unfold State.exitPreparing
          simp only
          split <;> rfl
        refine ⟨⟨hexit, ?_, .inr (.inr (.inl hstate))⟩, hactive⟩
        rw [hsettles.outer.store]
        exact hmild
      next => exact ⟨⟨hrest, hmild, .inr (.inl hst)⟩, rfl⟩
    next => exact ⟨⟨hrest, hmild, .inr (.inl hst)⟩, rfl⟩
  · unfold State.runStep
    rw [hst]
    simp only
    split
    · have hrunning : s.enterRunning.AtRest :=
        (hrest.enter (st := .running) none none (by rw [hst]; rfl) (by rw [hst]; rfl)).like rfl rfl rfl rfl
      exact ⟨⟨hrunning, hmild, .inr (.inr (.inr (.inl rfl)))⟩, rfl⟩
    · exact ⟨⟨hrest, hmild, .inr (.inr (.inl hst))⟩, rfl⟩
  · rw [State.runStep_moving (.inl hst)]
    exact ⟨⟨hrest, hmild, .inr (.inr (.inr (.inl hst)))⟩, rfl⟩
  · have hover : s.dwellOver = false := by
      rw [State.dwellOver, decide_eq_false hdue]
      rfl
    rw [State.runStep_dwell hst, hover]
    exact ⟨⟨hrest, hmild, .inr (.inr (.inr (.inr ⟨hst, hdue⟩)))⟩, rfl⟩

/-- An event of such a line leaves the shuttle's flag. -/
theorem State.Afoot.settle {s : State} (h : s.Afoot) : s.settle.shuttle.active = s.shuttle.active := by
  have hrounds (n : Nat) : ∀ u : State, u.Afoot → (State.rounds n u).shuttle.active = u.shuttle.active := by
    induction n with
    | zero => exact fun u _ => rfl
    | succ n ih =>
      intro u hu
      obtain ⟨hnext, hactive⟩ := hu.runStep
      show (State.rounds n u.round).shuttle.active = _
      rw [hu.rest.round, ih _ hnext, hactive]
  rw [State.settle]
  exact hrounds 8 s h

/-! ## SHUTTLE_START -/

/-- The policy of a policy code (R74). -/
def shuttlePolicy (p : Byte) : Option LoopPolicy :=
  if p = 1 then some .always else if p = 2 then some .onCall else none

theorem LoopPolicy.ofCode_byte (p : Byte) : LoopPolicy.ofCode p.toNat = shuttlePolicy p := by
  have h1 : p.toNat = 1 ↔ p = 1 := byte_code p (by omega)
  have h2 : p.toNat = 2 ↔ p = 2 := byte_code p (by omega)
  unfold LoopPolicy.ofCode
  split <;> unfold shuttlePolicy
  next h => rw [if_pos (h1.1 h)]
  next h => rw [if_neg fun e => absurd (h1.2 e) (by omega), if_pos (h2.1 h)]
  next n1 n2 => rw [if_neg fun e => n1 (h1.2 e), if_neg fun e => n2 (h2.2 e)]

/-- The dwell of a SHUTTLE_START, in s (10.7). -/
def shuttleDwell (h l : Byte) : Int := 256 * (h.toNat : Int) + l.toNat

theorem shuttleDwell_eq (tag p h l : Byte) : (fieldAt [tag, p, h, l] 2 2 : Int) = shuttleDwell h l := by
  have hraw : fieldAt [tag, p, h, l] 2 2 = 256 * h.toNat + l.toNat := getUnsigned_two h l
  rw [hraw, shuttleDwell]
  push_cast
  rfl

/-- SHUTTLE_START that fails a check (R57, R74). -/
theorem State.answerShuttleStart_refused {s : State} {tag p h l : Byte} {c : ReplyCode}
    (hc : runRefusal s (shuttlePolicy p).isSome true = some c) :
    s.answerShuttleStart [tag, p, h, l] = s.refuse c := by
  have hpolicy : LoopPolicy.ofCode (byteAt [tag, p, h, l] 1) = shuttlePolicy p := LoopPolicy.ofCode_byte p
  rw [runRefusal_eq] at hc
  unfold State.answerShuttleStart
  rw [hpolicy]
  cases hrefusal : s.runRequestRefusal with
  | some c' =>
    rw [hrefusal] at hc
    cases hc
    rfl
  | none =>
    rw [hrefusal] at hc
    cases hp : shuttlePolicy p with
    | none =>
      rw [hp] at hc
      cases hc
      rfl
    | some q =>
      rw [hp] at hc
      cases hc

/-- SHUTTLE_START that passes its checks (R74). -/
theorem State.answerShuttleStart_accepted {s : State} {tag p h l : Byte} {q : LoopPolicy}
    (hp : shuttlePolicy p = some q) (hc : runRefusal s true true = none) :
    s.answerShuttleStart [tag, p, h, l] = ((s.startShuttle q (min (shuttleDwell h l) 600)).arbitrating,
      { code := if 600 < shuttleDwell h l then .clamped else .accepted }) := by
  have hpolicy : LoopPolicy.ofCode (byteAt [tag, p, h, l] 1) = shuttlePolicy p := LoopPolicy.ofCode_byte p
  rw [runRefusal_eq] at hc
  unfold State.answerShuttleStart
  rw [hpolicy, hp, shuttleDwell_eq]
  cases hrefusal : s.runRequestRefusal with
  | some c' =>
    rw [hrefusal] at hc
    cases hc
  | none => rfl

/-- What a run request's checks passed say (R57). -/
theorem runRefusal_passed {s : State} {valid known : Bool} (h : runRefusal s valid known = none) :
    s.store.commissioning = .locked ∧ s.reck.referenced = true ∧ s.store.staging = none
      ∧ s.store.cycle = .idle := by
  unfold runRefusal at h
  split at h
  next => cases h
  next hlocked =>
    split at h
    next => cases h
    next href =>
      split at h
      next => cases h
      next hedit =>
        split at h
        next => cases h
        next hidle =>
          exact ⟨not_not.1 hlocked, by simpa using href, by simpa using hedit, not_not.1 hidle⟩

/-- The stop that a shuttle run goes to (R64). -/
def State.shuttleGoal (s : State) (q : LoopPolicy) (dir : Dir) : Stop :=
  if q = .always ∧ s.linkUp .loopStation = true ∧ s.window .loop < s.beyond dir .loop then .loop
  else dir.terminal

/-- The shuttle's choice with nothing queued and the cars not at its goal (R64). -/
theorem State.choose_shuttle {s : State} (hq : s.queue = []) (hs : s.shuttle.active = true)
    (hstand : s.standAt (s.shuttleGoal s.shuttle.policy s.shuttle.lastDir.opposite) = false) :
    s.choose = .run (s.shuttleGoal s.shuttle.policy s.shuttle.lastDir.opposite) .shuttle
      (s.dirToward (s.shuttleGoal s.shuttle.policy s.shuttle.lastDir.opposite)) := by
  have hold : s.oldestEligible = none := by
    rw [State.oldestEligible, hq]
    rfl
  have hahead : s.loopAhead s.shuttle.lastDir.opposite = true
      ↔ s.window .loop < s.beyond s.shuttle.lastDir.opposite .loop := decide_eq_true_iff
  unfold State.choose
  rw [hold]
  simp only [hs, if_true]
  unfold State.chooseShuttle
  simp only [hahead]
  unfold State.shuttleGoal at hstand ⊢
  split
  next => rfl
  next hnot =>
    rw [if_neg hnot] at hstand
    simp only [hstand, Bool.false_eq_true, if_false]

theorem State.called_goal (s : State) (dt : Nat) (p : Party) (q : LoopPolicy) (dir : Dir) :
    (s.called dt p).shuttleGoal q dir = s.shuttleGoal q dir := by
  unfold State.shuttleGoal
  rw [State.called_up]
  rfl

/-- A line parked at rest with nothing queued and the cars not at the shuttle's goal stands in PREPARING for a
run there while a car's doors are not locked (R61, R64, R74). -/
theorem State.AtRest.settle_shuttle {s : State} (h : s.AtRest) {q : LoopPolicy} {d : Int}
    (hp : s.run.state = .parked) (hstop : s.stopDemanded = false) (hq : s.queue = [])
    (hup : s.linkUp .console = true)
    (hready : s.store.commissioning = .locked ∧ s.reck.referenced = true ∧ s.store.staging = none
      ∧ s.store.cycle = .idle) (hdoors : s.recs.car.one.doors ≠ .closedLocked)
    (hstand : s.standAt (s.shuttleGoal q s.shuttle.lastDir.opposite) = false) :
    Prepares (s.startShuttle q d) .shuttle
      (if s.reck.sample.s < s.starOf (s.shuttleGoal q s.shuttle.lastDir.opposite) then .up else .down)
      (some (s.shuttleGoal q s.shuttle.lastDir.opposite)) [] (s.startShuttle q d).wantArbitration.settle := by
  obtain ⟨hlocked, href, hedit, hidle⟩ := hready
  have hrest : (s.startShuttle q d).wantArbitration.AtRest := h.like rfl rfl rfl rfl
  have harb : (s.startShuttle q d).wantArbitration.run.arbitrate = true := by
    show (s.run.arbitrate || decide (s.run.state = .parked)) = true
    rw [decide_eq_true hp, Bool.or_true]
  have hmay : ((s.startShuttle q d).wantArbitration.modRun fun r =>
      { r with arbitrate := false }).mayArbitrate = true :=
    State.mayArbitrate_of hp hstop hedit hidle hup hlocked href
  have hchoose := State.choose_shuttle
    (s := (s.startShuttle q d).wantArbitration.modRun fun r => { r with arbitrate := false }) hq rfl hstand
  have hprepares := hrest.settle_prepares hp harb hmay hchoose (.inl hdoors)
  have hserved : (s.startShuttle q d).wantArbitration.servedFor
      (s.shuttleGoal q s.shuttle.lastDir.opposite) = [] := by
    unfold State.servedFor State.entriesFor
    show (s.queue.filter _).map _ = []
    rw [hq]
    rfl
  have hsame (v : State) (hv : Prepares (s.startShuttle q d).wantArbitration .shuttle
      (s.dirToward (s.shuttleGoal q s.shuttle.lastDir.opposite))
      (some (s.shuttleGoal q s.shuttle.lastDir.opposite)) [] v) :
      Prepares (s.startShuttle q d) .shuttle (s.dirToward (s.shuttleGoal q s.shuttle.lastDir.opposite))
        (some (s.shuttleGoal q s.shuttle.lastDir.opposite)) [] v :=
    { hv with outer := (State.modRun_settles _ _).outer.trans hv.outer }
  refine hsame _ ?_
  rw [← hserved]
  exact hprepares

/-- An arbitration leaves links, records and store. -/
theorem State.arbitrating_outer (s : State) : Outer s s.arbitrating := by
  unfold State.arbitrating
  split
  · exact (s.modRun_settles _).outer.trans (State.settle_settles _).outer
  · exact Outer.refl s

theorem State.arbitrating_paced (s : State) : Paced s s.arbitrating := by
  unfold State.arbitrating
  split
  · exact (Paced.same : Paced s s.wantArbitration).trans (State.settle_paced _)
  · exact Paced.refl s

/-- Settles O47: by the run state, and in PARKED by what arbitration comes to. -/
theorem shuttleRequestsSetRecord : Obligations.ShuttleRequestsSetRecord := by
  intro dt tag p h l s hr hh
  refine ⟨fun c hc => ?_, fun q hq hc => ?_, ?_⟩
  · exact congrArg _ (State.event_refused hr hh dt (t := .shuttleStart) rfl rfl rfl
      (State.answerShuttleStart_refused (s := s.called dt .console) hc))
  · have hanswer : (s.called dt .console).answer .console .shuttleStart [tag, p, h, l]
        = (((s.called dt .console).startShuttle q (min (shuttleDwell h l) 600)).arbitrating,
          { code := if 600 < shuttleDwell h l then .clamped else .accepted }) :=
      State.answerShuttleStart_accepted (s := s.called dt .console) hq hc
    refine ⟨fun hp => ?_, ?_⟩
    · rw [State.arbitrating_moving
        (s := (s.called dt .console).startShuttle q (min (shuttleDwell h l) 600)) hp] at hanswer
      exact congrArg _ (State.event_call_alike hr.1 hh dt rfl rfl rfl hanswer hr.2
        { State.called_alike s dt .console with })
    · have hsends := State.event_call_sends hr.1 hh dt rfl rfl rfl hanswer
      have hsettled := ((s.called dt .console).startShuttle q (min (shuttleDwell h l) 600)).arbitrating_outer
      have hpaced := ((s.called dt .console).startShuttle q (min (shuttleDwell h l) 600)).arbitrating_paced
      have hconsole := State.reply_link (dt := dt) (p := .console) hsettled.links MsgType.shuttleStart.code
        [tag, p, h, l] { code := if 600 < shuttleDwell h l then .clamped else .accepted }
      refine ⟨_, rfl, ?_, ?_, hsends.store.trans hsettled.store, hsends.console.trans hconsole,
        fun hrest hp hmild => ?_, fun hrest hp hstop hqueue hdoors hstand => ?_⟩
      · rw [hsends.shuttle]
        exact hpaced.shuttle.1
      · rw [hsends.shuttle]
        exact hpaced.shuttle.2
      · have hafoot : ((s.called dt .console).startShuttle q (min (shuttleDwell h l) 600)).wantArbitration.Afoot :=
          ⟨(hrest.called dt .console).like rfl rfl rfl rfl, hmild, .inl hp⟩
        rw [hsends.shuttle]
        show ((s.called dt .console).startShuttle q (min (shuttleDwell h l) 600)).arbitrating.shuttle.active = true
        rw [State.arbitrating_parked (s := (s.called dt .console).startShuttle q (min (shuttleDwell h l) 600)) hp,
          hafoot.settle]
        rfl
      · have hprepares := State.AtRest.settle_shuttle (hrest.called dt .console) (q := q)
          (d := min (shuttleDwell h l) 600) hp hstop hqueue ((State.called_up s dt .console _).trans hh.1)
          (runRefusal_passed hc) hdoors (by rw [State.called_goal]; exact hstand)
        rw [State.called_goal] at hprepares
        rw [← State.arbitrating_parked (s := (s.called dt .console).startShuttle q (min (shuttleDwell h l) 600)) hp]
          at hprepares
        generalize ((s.called dt .console).startShuttle q (min (shuttleDwell h l) 600)).arbitrating = u at *
        obtain ⟨r, hrec, -, hmode, hdir, htarget, hserved, -⟩ := hprepares.record
        refine ⟨hsends.state.trans hprepares.state, hsends.shuttle.trans hprepares.shuttle, ?_,
          ⟨r, (congrArg RunControl.record hsends.run :).trans hrec, hmode, htarget, hserved, hdir⟩⟩
        refine (hsends.queue.trans hprepares.queue).trans ?_
        show s.queue.map _ = []
        rw [hqueue]
        rfl
  · cases hs : s.shuttle.active with
    | true =>
      have hanswer : (s.called dt .console).answer .console .shuttleEnd [tag]
          = ({ s.called dt .console with shuttle := { s.shuttle with active := false } },
            { code := .accepted }) := if_pos hs
      exact congrArg _ (State.event_call_alike hr.1 hh dt rfl rfl rfl hanswer hr.2
        { State.called_alike s dt .console with })
    | false =>
      have hanswer : (s.called dt .console).answer .console .shuttleEnd [tag]
          = (s.called dt .console, { code := .wrongState }) :=
        if_neg (by show ¬ s.shuttle.active = true; rw [hs]; exact Bool.noConfusion)
      exact congrArg _ (State.event_refused hr hh dt rfl rfl rfl hanswer)

end Sys2Proof.Machine
end

section
/-!
Acknowledgement: its checks, the entries that it removes, and the state that is then left.
-/

namespace Sys2Proof.Machine

open Sys2Proof

set_option Elab.async false

/-! ## The checks of an ACK_FAULT that names a kind -/

theorem FaultKind.ofCode_code (k : FaultKind) : FaultKind.ofCode k.code = some k := by
  cases k <;> rfl

/-- No kind has a code that is not read as one. -/
theorem FaultKind.ofCode_none {n : Nat} (h : FaultKind.ofCode n = none) (k : FaultKind) : k.code ≠ n := by
  rintro rfl
  rw [k.ofCode_code] at h
  cases h

/-- A kind's code names its entry. -/
theorem FaultKind.named {kd : FaultKind} {n : Nat} (h : FaultKind.ofCode n = some kd) (j : FaultKind) :
    j.code = n ↔ j = kd := by
  rw [← FaultKind.ofCode_some h]
  exact ⟨j.code_injective kd, congrArg _⟩

theorem RunState.admitsAck_iff (st : RunState) : st.admitsAck = true ↔
    st = .parked ∨ st = .dwell ∨ st = .suspended ∨ st = .faultHeld := by
  cases st <;> simp [RunState.admitsAck]

/-- The entries of the Active Fault Set but the one whose kind has a code (R168). -/
def State.faultsBut (s : State) (k : Byte) : List FaultEntry :=
  s.faults.filter fun e => decide (e.kind.code ≠ k.toNat)

/-- The entry that an ACK_FAULT names is the entry of its kind. -/
theorem State.fault_named {s : State} {k : Byte} {kd : FaultKind} (hk : FaultKind.ofCode k.toNat = some kd) :
    (s.faults.find? fun e => decide (e.kind.code = k.toNat)) = s.fault kd
      ∧ s.faultsBut k = s.faults.filter fun e => decide (e.kind ≠ kd) := by
  have hnamed (e : FaultEntry) : decide (e.kind.code = k.toNat) = decide (e.kind = kd) :=
    decide_eq_decide.2 (FaultKind.named hk e.kind)
  constructor
  · unfold State.fault
    congr 1
    funext e
    exact hnamed e
  · unfold State.faultsBut
    congr 1
    funext e
    exact decide_eq_decide.2 (not_congr (FaultKind.named hk e.kind))

/-- ACK_FAULT naming a kind: its checks refuse, or the entry of the kind is removed (R168). -/
theorem State.answerAck_kind (s : State) (tag : Byte) {k : Byte} (hk : k ≠ 0) :
    s.answer .console .ackFault [tag, k] = match ackCheck s k with
      | some c => (s, { code := c })
      | none => (({ s with faults := s.faultsBut k } : State).settle, { code := .accepted }) := by
  have hne : k.toNat ≠ 0 := fun h => hk (BitVec.eq_of_toNat_eq h)
  have hall : ¬ byteAt [tag, k] 1 = 0 := hne
  show s.answerAck [tag, k] = _
  rw [State.answerAck, if_neg hall, show byteAt [tag, k] 1 = k.toNat from rfl, ackCheck]
  cases hkd : FaultKind.ofCode k.toNat with
  | none =>
    have hfind : (s.faults.find? fun e => decide (e.kind.code = k.toNat)) = none :=
      List.find?_eq_none.2 fun e _ => by simpa using FaultKind.ofCode_none hkd e.kind
    rw [hfind]
    rfl
  | some kd =>
    obtain ⟨hfind, hbut⟩ := State.fault_named (s := s) hkd
    rw [hfind, hbut]
    show s.ackKind kd = _
    unfold State.ackKind
    cases s.fault kd with
    | none => rfl
    | some e =>
      have hadmits := s.run.state.admitsAck_iff
      cases hr : e.reported with
      | false => simp [hr, State.refuse]
      | true =>
        cases hp : e.isPresent with
        | true => simp [hr, hp, State.refuse]
        | false =>
          cases ha : s.run.state.admitsAck with
          | false =>
            rw [ha] at hadmits
            have hmoving : ¬ (s.run.state = .parked ∨ s.run.state = .dwell ∨ s.run.state = .suspended
              ∨ s.run.state = .faultHeld) := fun h => Bool.false_ne_true (hadmits.2 h)
            simp only [hr, hp, if_neg hmoving]
            rfl
          | true =>
            simp only [hr, hp, if_pos (hadmits.1 ha)]
            rfl

/-! ## ACK_FAULT ALL -/

/-- An entry that is reported and not present (R169). -/
def FaultEntry.over (e : FaultEntry) : Bool := e.reported && !e.isPresent

/-- The entries that an ACK_FAULT ALL leaves (R169). -/
def State.faultsNotOver (s : State) : List FaultEntry := s.faults.filter fun e => !e.over

/-- ACK_FAULT ALL in a run state in which acknowledgement is allowed. -/
theorem State.answerAck_all (s : State) (tag : Byte) (h : s.run.state.admitsAck = true) :
    s.answer .console .ackFault [tag, 0]
      = (({ s with faults := s.faultsNotOver } : State).settle,
        { code := .accepted, detail := (s.faults.filter FaultEntry.over).length }) := by
  have heligible (e : FaultEntry) : e.eligible s.run.state = e.over := by
    rw [FaultEntry.eligible, h, Bool.and_true]
    rfl
  show s.ackAll = _
  unfold State.ackAll State.faultsNotOver
  simp only [heligible]

/-- ACK_FAULT ALL in any other run state: no entry is eligible. -/
theorem State.answerAck_none (s : State) (tag : Byte) (h : s.run.state.admitsAck = false) :
    s.answer .console .ackFault [tag, 0] = (s.settle, { code := .accepted, detail := 0 }) := by
  have hnone (e : FaultEntry) : e.eligible s.run.state = false := by
    rw [FaultEntry.eligible, h, Bool.and_false]
  have hgone : (s.faults.filter fun e => e.eligible s.run.state) = [] :=
    List.filter_eq_nil_iff.2 fun e _ => by rw [hnone]; exact Bool.noConfusion
  have hleft : (s.faults.filter fun e => !e.eligible s.run.state) = s.faults :=
    List.filter_eq_self.2 fun e _ => by rw [hnone]; rfl
  show s.ackAll = _
  unfold State.ackAll
  rw [hgone, hleft]
  rfl

/-! ## What is left to be done after an acknowledgement -/

theorem State.stopDemanded_iff (s : State) : s.stopDemanded = true ↔ ∃ e ∈ s.faults, 0 < e.cls.rank := by
  simp [State.stopDemanded]

/-- A standing state in which a changed Active Fault Set leaves nothing to be done: PARKED, SUSPENDED, and
DWELL while its timer runs or a car's doors are not reported locked. -/
def State.Stays (s : State) : Prop :=
  s.run.state = .parked ∨ s.run.state = .suspended
    ∨ (s.run.state = .dwell ∧ (s.run.dwellDue ≠ none ∨ s.recs.car.one.doors ≠ .closedLocked
      ∨ s.recs.car.two.doors ≠ .closedLocked))

/-- A moving or waiting state in which the Run Controller has nothing to do while nothing changes. -/
def State.Goes (s : State) : Prop :=
  s.run.state = .running ∨ s.run.state = .finalApproach ∨ s.run.state = .suspending
    ∨ (s.run.state = .preparing ∧ s.recs.car.one.doors ≠ .closedLocked)
    ∨ (s.run.state = .releasing ∧ s.brk.service.state ≠ .released)
    ∨ (s.run.state = .settling ∧ s.run.standstill = false ∧ s.brk.service.state ≠ .applied)
    ∨ (s.run.state = .faultStopping ∧ s.run.stopClass = some .serviceStop
      ∧ s.run.standstill = false ∧ s.brk.service.state ≠ .applied ∧ s.brk.service.ended = false)

/-- DWELL stands while its timer runs or a car's doors are not reported locked (R95). -/
theorem State.dwellOver_not {s : State} (h : s.run.dwellDue ≠ none ∨ s.recs.car.one.doors ≠ .closedLocked
    ∨ s.recs.car.two.doors ≠ .closedLocked) : s.dwellOver = false := by
  refine Bool.eq_false_iff.2 fun hover => ?_
  simp only [State.dwellOver, Bool.and_eq_true, decide_eq_true_eq] at hover
  obtain ⟨⟨⟨hdue, hone⟩, htwo⟩, -⟩ := hover
  rcases h with h | h | h
  · exact h hdue
  · exact h hone
  · exact h htwo

theorem State.runStep_stays {s : State} (h : s.Stays ∨ (s.run.state = .faultHeld ∧ s.stopDemanded = true))
    (hq : s.Quiet) : s.runStep = s := by
  obtain (h | h | ⟨h, hd⟩) | ⟨h, hd⟩ := h
  · exact State.runStep_parked h hq.2
  · exact State.runStep_moving (.inr (.inr (.inr h)))
  · exact (State.runStep_dwell h).trans (if_neg (by rw [State.dwellOver_not hd]; exact Bool.noConfusion))
  · exact State.runStep_faultHeld h hd

/-- A brake that is not in a state keeps both from standing in it. -/
theorem State.bothBrakes_not {s : State} {b : BrakeState} (h : s.brk.service.state ≠ b) :
    s.bothBrakes b = false := by
  rw [State.bothBrakes, decide_eq_false h, Bool.false_and]

theorem State.runStep_goes {s : State} (h : s.Goes) (hq : s.Quiet) : s.runStep = s := by
  obtain h | h | h | ⟨h, hd⟩ | ⟨h, hb⟩ | ⟨h, hs, hb⟩ | ⟨h, hc, hs, hb, he⟩ := h
  · exact State.runStep_moving (.inl h)
  · exact State.runStep_moving (.inr (.inl h))
  · exact State.runStep_moving (.inr (.inr (.inl h)))
  · exact State.runStep_preparing h (.inl hd)
  · simp only [State.runStep, h, State.bothBrakes_not hb, Bool.false_eq_true, if_false]
  · exact State.runStep_settling h hs (State.bothBrakes_not hb)
  · have hdone : s.brk.service.done = false := by rw [Brake.done, decide_eq_false hb, he]; rfl
    exact State.runStep_idle (.inr (.inr (.inr (.inr (.inr (.inr
      ⟨h, hs, .inr (.inl hdone), .inr (.inl hc)⟩)))))) hq

theorem State.Goes.admitsAck {s : State} (h : s.Goes) : s.run.state.admitsAck = false := by
  obtain h | h | h | ⟨h, -⟩ | ⟨h, -⟩ | ⟨h, -⟩ | ⟨h, -⟩ := h <;> rw [h] <;> rfl

/-! ## The state after an acknowledgement -/

/-- The state in which an acknowledgement of the console settles. -/
def State.acked (s : State) (dt : Nat) (left : List FaultEntry) : State :=
  { s.called dt .console with faults := left }

theorem State.AtRest.acked {s : State} (h : s.AtRest) (dt : Nat) (left : List FaultEntry) :
    (s.acked dt left).AtRest :=
  (h.called dt .console).like rfl rfl rfl rfl

/-- With nothing else to be done an acknowledgement changes the set alone. -/
theorem State.AtRest.settle_acked {s : State} (h : s.AtRest) (hq : s.Quiet) (dt : Nat)
    {left : List FaultEntry}
    (hs : s.Stays ∨ (s.run.state = .faultHeld ∧ ∃ e ∈ left, 0 < e.cls.rank)) :
    (s.acked dt left).settle = s.acked dt left :=
  (h.acked dt left).settle (State.runStep_stays (s := s.acked dt left)
    (hs.imp id fun hs => ⟨hs.1, (State.stopDemanded_iff _).2 hs.2⟩) hq)

/-- FAULT_HELD is left once no entry of class SERVICE_STOP or higher is there: the line is PARKED, with the
rail brake demand clear (R105). -/
structure State.Parks (s t : State) (left : List FaultEntry) : Prop where
  state : t.run.state = .parked
  record : t.run.record = none
  faults : t.faults = left
  queue : t.queue = []
  brk : t.brk = { s.brk with rail := false }

theorem State.AtRest.settle_parksAcked {s : State} (h : s.AtRest) (dt : Nat) {left : List FaultEntry}
    (hst : s.run.state = .faultHeld) (hleft : ∀ e ∈ left, e.cls.rank = 0) (hq : s.queue = [])
    (hs : s.shuttle.active = false) :
    s.Parks (s.acked dt left).settle left ∧ (s.acked dt left).settle.links = (s.called dt .console).links := by
  have hcalm : (s.acked dt left).stopDemanded = false := by
    refine Bool.eq_false_iff.2 fun hd => ?_
    obtain ⟨e, he, hrank⟩ := (State.stopDemanded_iff _).1 hd
    exact absurd (hleft e he) (Nat.pos_iff_ne_zero.1 hrank)
  have hrest := h.acked dt left
  have hround : (s.acked dt left).round = (s.acked dt left).leaveFaultHeld := by
    have hheld : (s.acked dt left).run.state = .faultHeld := hst
    rw [hrest.round]
    simp only [State.runStep, hheld, hcalm, Bool.false_eq_true, if_false]
  have hclear : ((s.acked dt left).modBrk fun u => { u with rail := false }).AtRest :=
    hrest.like rfl rfl rfl rfl
  have hsettle := hclear.settle_parksFrom (by show s.run.state.unsupervised = true; rw [hst]; rfl) hround
    (State.choose_empty hq hs)
  rw [hsettle]
  exact ⟨⟨rfl, rfl, rfl, hq, rfl⟩, rfl⟩

theorem State.Parks.sends {s t u : State} {left : List FaultEntry} (h : s.Parks t left) (hs : Sends t u) :
    s.Parks u left :=
  ⟨hs.state.trans h.state, (congrArg RunControl.record hs.run :).trans h.record, hs.faults.trans h.faults,
    hs.queue.trans h.queue, hs.brk.trans h.brk⟩

/-- Whatever else an acknowledgement brings about, an entry of the removed kind is a new one (R168). -/
theorem State.settle_faultsBut (s : State) (dt : Nat) (k : Byte) :
    ∀ e ∈ (s.acked dt (s.faultsBut k)).settle.faults, e.kind.code = k.toNat → e.reported = false := by
  intro e he hcode
  obtain ⟨f, hf, hfollows⟩ | ⟨hnew, -⟩ := (State.settle_settles _).new e he
  · have hother := of_decide_eq_true (List.mem_filter.1 hf).2
    exact absurd (hfollows.kind ▸ hcode) hother
  · exact hnew

section
variable {s : State} (hr : s.Ready) (hh : s.Hears .console) (dt : Nat) {tag k : Byte} {r : Reply}
  {left : List FaultEntry}
  (ha : (s.called dt .console).answer .console .ackFault [tag, k] = ((s.acked dt left).settle, r))
include hr hh ha

/-- With nothing else to be done the acknowledgement changes the set and sends its REPLY. -/
theorem State.event_acked (hsettle : (s.acked dt left).settle = s.acked dt left) :
    s.event dt (State.hear .console MsgType.ackFault.code [tag, k])
      = { s.answered dt .console 0x17 tag r with faults := left } := by
  rw [hsettle] at ha
  exact State.event_call_alike hr.1 hh dt rfl rfl rfl ha hr.2 { State.called_alike s dt .console with }

/-- The Active Fault Set after an acknowledgement is the one that it settles with. -/
theorem State.event_ackFaults : (s.event dt (State.hear .console MsgType.ackFault.code [tag, k])).faults
    = (s.acked dt left).settle.faults := by
  have hsends := State.event_call_sends hr.1 hh dt rfl rfl rfl ha
  generalize (s.acked dt left).settle = u at hsends
  exact hsends.faults

/-- The REPLY of an acknowledgement is the console link's. -/
theorem State.event_ackReply :
    (s.event dt (State.hear .console MsgType.ackFault.code [tag, k])).link .console
      = (s.heardLink dt .console).hand .reply [replyFrame 0x17 tag r] := by
  have hsends := State.event_call_sends hr.1 hh dt rfl rfl rfl ha
  exact hsends.console.trans (State.reply_link (State.settle_settles (s.acked dt left)).outer.links
    MsgType.ackFault.code [tag, k] r)

/-- From FAULT_HELD an acknowledgement that leaves no entry of class SERVICE_STOP or higher parks the line
(R105). -/
theorem State.event_ackParks (hrest : s.AtRest) (hst : s.run.state = .faultHeld)
    (hleft : ∀ e ∈ left, e.cls.rank = 0) (hq : s.queue = []) (hs : s.shuttle.active = false) :
    s.Parks (s.event dt (State.hear .console MsgType.ackFault.code [tag, k])) left := by
  have hsends := State.event_call_sends hr.1 hh dt rfl rfl rfl ha
  have hparks := (hrest.settle_parksAcked dt hst hleft hq hs).1
  generalize (s.acked dt left).settle = u at hsends hparks
  exact State.Parks.sends (t := u.reply .console MsgType.ackFault.code [tag, k] r)
    ⟨hparks.state, hparks.record, hparks.faults, hparks.queue, hparks.brk⟩ hsends

end

/-- Settles O48: the checks, the removal of one kind, and the removal of all that is over. -/
theorem acknowledgementRemovesEntries : Obligations.AcknowledgementRemovesEntries := by
  intro dt tag k s hr hh
  have hleft : ∀ e ∈ s.faultsNotOver, e ∈ s.faults ∧ e.over = false := fun e he => by
    simpa using List.mem_filter.1 he
  refine ⟨fun c hk hc => ?_, fun hk hc => ?_, fun hrest hs => ?_, fun hrest hst hcalm hq hs => ?_,
    fun hrest hs => ?_⟩
  · have hanswer := (s.called dt .console).answerAck_kind tag hk
    rw [show ackCheck (s.called dt .console) k = some c from hc] at hanswer
    exact congrArg _ (State.event_refused hr hh dt (t := .ackFault) rfl rfl rfl hanswer)
  · have hanswer := (s.called dt .console).answerAck_kind tag hk
    rw [show ackCheck (s.called dt .console) k = none from hc] at hanswer
    have hfaults := State.event_ackFaults hr hh dt (left := s.faultsBut k) hanswer
    refine ⟨_, rfl, fun e he => s.settle_faultsBut dt k e (hfaults ▸ he), State.event_ackReply hr hh dt (left := s.faultsBut k) hanswer,
      fun hrest hs => ?_, fun hrest hst hcalm hq hs => ?_⟩
    · exact State.event_acked hr hh dt (left := s.faultsBut k) hanswer (hrest.settle_acked hr.2 dt hs)
    · obtain ⟨h1, h2, h3, h4, h5⟩ := State.event_ackParks hr hh dt (left := s.faultsBut k) hanswer hrest hst
        hcalm hq hs
      exact ⟨h1, h2, h3, h4, h5⟩
  · have hadmits : s.run.state.admitsAck = true := by
      refine s.run.state.admitsAck_iff.2 ?_
      obtain (h | h | ⟨h, -⟩) | ⟨h, -⟩ := hs
      · exact .inl h
      · exact .inr (.inr (.inl h))
      · exact .inr (.inl h)
      · exact .inr (.inr (.inr h))
    have hanswer := (s.called dt .console).answerAck_all tag hadmits
    refine congrArg _ (State.event_acked hr hh dt (left := s.faultsNotOver) hanswer
      (hrest.settle_acked hr.2 dt (hs.imp id fun hs => ?_)))
    obtain ⟨hst, e, he, hover, hrank⟩ := hs
    exact ⟨hst, e, List.mem_filter.2 ⟨he, congrArg (!·) hover⟩, hrank⟩
  · have hanswer := (s.called dt .console).answerAck_all tag
      ((s.run.state.admitsAck_iff).2 (.inr (.inr (.inr hst))))
    obtain ⟨h1, h2, h3, h4, h5⟩ := State.event_ackParks hr hh dt (left := s.faultsNotOver) hanswer hrest hst
      (fun e he => hcalm e (hleft e he).1 (hleft e he).2) hq hs
    exact ⟨_, rfl, ⟨h1, h2, h3, h4, h5⟩, State.event_ackReply hr hh dt (left := s.faultsNotOver) hanswer⟩
  · have hgoes : s.Goes := hs
    have hanswer := (s.called dt .console).answerAck_none tag hgoes.admitsAck
    rw [(hrest.called dt .console).settle (State.runStep_goes (s := s.called dt .console) hgoes hr.2)]
      at hanswer
    exact congrArg _ (State.event_refused hr hh dt rfl rfl rfl hanswer)

end Sys2Proof.Machine
end

section
/-!
The ends of the store cycles: a constant write, the lock, and a commit.
-/

namespace Sys2Proof.Machine

open Sys2Proof

set_option Elab.async false

/-! ## A changed pulse scale -/

/-- A constant that already holds the value written stands (R190). -/
theorem Constants.put_same {c : Constants} {n : ConstName} {v : Int} (h : c.get n = some v) : c.put n v = c := by
  cases c
  cases n <;> cases h <;> rfl

/-- A constant write leaves its own channel where it stands, rebased or not (R24). -/
theorem State.scaleRebase_chanPos (s : State) {n : ConstName} (v : Int) {ch : Channel} (h : n.channel = some ch) :
    ((s.scaleRebase n v).modStore fun st => st.putConstant n v).chanPos ch = s.chanPos ch := by
  unfold State.scaleRebase
  rw [h]
  by_cases hv : s.store.consts.get n = some v
  · have hsame : (s.modStore fun st => st.putConstant n v).scale ch = s.scale ch := by
      have hconsts : (s.modStore fun st => st.putConstant n v).store.consts = s.store.consts :=
        Constants.put_same hv
      unfold State.scale State.const
      rw [hconsts]
    simp only [if_pos hv]
    rw [State.chanPos, hsame]
    rfl
  · simp only [if_neg hv]
    generalize hpos : s.chanPos ch = x
    have hget : (((s.modChan ch fun c => c.rebase x).evalDisagree).modStore fun st =>
        st.putConstant n v).chan.get ch = (s.chan.get ch).rebase x := by
      cases ch <;> rfl
    rw [State.chanPos, hget, ChannelRecord.rebase_position]

theorem State.scaleRebase_records (s : State) (n : ConstName) (v : Int) :
    (s.scaleRebase n v).store = s.store ∧ (s.scaleRebase n v).recs = s.recs := by
  unfold State.scaleRebase
  repeat' split
  all_goals exact ⟨rfl, rfl⟩

/-! ## The end of a constant write cycle -/

/-- A written constant is in force at once (R190). -/
theorem Constants.inForce_put (c : Constants) (n : ConstName) (v : Int) : (c.put n v).inForce n = v := by
  cases n <;> rfl

/-- Only a written M_max changes the records of the parties: it lowers each recorded load above it (R184). -/
theorem State.limitLoads_records (s : State) (n : ConstName) : (s.limitLoads n).store = s.store
    ∧ (n ≠ .mMax → (s.limitLoads n).recs = s.recs)
    ∧ (n = .mMax → ∀ k : Car, (s.limitLoads n).recs.car.get k
      = { s.recs.car.get k with load := (s.recs.car.get k).load.map fun x => min x (s.const .mMax) }) := by
  cases n
  case mMax => exact ⟨rfl, fun h => absurd rfl h, fun _ k => by cases k <;> rfl⟩
  all_goals exact ⟨rfl, fun _ => rfl, fun h => by cases h⟩

/-- The end of a constant write cycle: the store and the records of the parties that it leaves. -/
theorem State.completeConstant_records (s : State) (n : ConstName) (v : Int) :
    (s.completeConstant n v).store = s.store.putConstant n v
    ∧ (n ≠ .mMax → (s.completeConstant n v).recs = s.recs)
    ∧ (n = .mMax → ∀ k : Car, (s.completeConstant n v).recs.car.get k
      = { s.recs.car.get k with load := (s.recs.car.get k).load.map fun x => min x v }) := by
  obtain ⟨hstore, hrecs⟩ := s.scaleRebase_records n v
  generalize ht : (s.scaleRebase n v).modStore (fun st => st.putConstant n v) = t
  have htstore : t.store = s.store.putConstant n v := by
    rw [← ht, ← hstore]
    rfl
  have htrecs : t.recs = s.recs := by
    rw [← ht]
    exact hrecs
  have hcomplete : s.completeConstant n v = (t.limitLoads n).settle := by rw [← ht]; rfl
  have houter := (State.settle_settles (t.limitLoads n)).outer
  obtain ⟨hl1, hl2, hl3⟩ := t.limitLoads_records n
  rw [hcomplete, houter.store, houter.recs, hl1, htstore]
  refine ⟨rfl, fun hn => (hl2 hn).trans htrecs, fun hn k => ?_⟩
  have hmax : t.const .mMax = v := by
    subst hn
    rw [State.const, htstore]
    exact Constants.inForce_put _ .mMax v
  rw [hl3 hn, hmax, htrecs]

theorem State.takeConstantEnd_writing {s : State} {n : ConstName} {v : Int} (h : s.store.cycle = .constant n v) :
    s.takeConstantEnd = s.completeConstant n v := by
  rw [State.takeConstantEnd, h]

theorem State.takeConstantEnd_none {s : State} (h : ∀ n v, s.store.cycle ≠ .constant n v) :
    s.takeConstantEnd = s := by
  unfold State.takeConstantEnd
  split
  next n v hc => exact absurd hc (h n v)
  next => rfl

/-! ## The end of the lock cycle -/

theorem State.takeLockEnd_locking {s : State} (h : s.store.cycle = .lock) : s.takeLockEnd = s.completeLock := by
  rw [State.takeLockEnd, h]

theorem State.takeLockEnd_none {s : State} (h : s.store.cycle ≠ .lock) : s.takeLockEnd = s := by
  unfold State.takeLockEnd
  split
  next hc => exact absurd hc h
  next => rfl

/-- The end of the lock cycle sets the lock and leaves the records of the parties (R191). -/
theorem State.completeLock_records (s : State) :
    s.completeLock.store = { s.store with lock := true, cycle := .idle } ∧ s.completeLock.recs = s.recs := by
  have houter := (State.settle_settles
    (s.modStore fun st => { st with lock := true, cycle := .idle }).wantArbitration).outer
  exact ⟨houter.store, houter.recs⟩

/-- Settles O53: by the cycle in flight; the settling of the event leaves store and records. -/
theorem storeCyclesComplete : Obligations.StoreCyclesComplete := by
  refine ⟨fun dt s hheld => ⟨fun n v hc => ?_, fun hc => ?_, fun hq hc => ?_, fun hq hc => ?_⟩,
    fun s n v ch h => s.scaleRebase_chanPos v h⟩
  · have hsends := State.event_sends hheld dt State.takeConstantEnd
    rw [State.takeConstantEnd_writing (s := s.advance dt) hc] at hsends
    obtain ⟨hstore, hother, hloads⟩ := (s.advance dt).completeConstant_records n v
    have hstore' := hsends.store.trans hstore
    have hconsts : (s.event dt State.takeConstantEnd).store.consts = s.store.consts.put n v :=
      congrArg Store.consts hstore'
    refine ⟨_, rfl, hstore', ?_, fun m hm => ?_, fun hn => hsends.recs.trans (hother hn), fun hn k => ?_⟩
    · rw [hconsts, Constants.get_put, if_pos rfl]
    · rw [hconsts, Constants.get_put, if_neg hm]
    · rw [hsends.recs]
      exact hloads hn k
  · have hsends := State.event_sends hheld dt State.takeLockEnd
    rw [State.takeLockEnd_locking (s := s.advance dt) hc] at hsends
    obtain ⟨hstore, hrecs⟩ := (s.advance dt).completeLock_records
    exact ⟨_, rfl, hsends.store.trans hstore, hsends.recs.trans hrecs⟩
  · exact congrArg _ (State.event_still ⟨hheld, hq⟩ (State.takeConstantEnd_none (s := s.advance dt) hc))
  · exact congrArg _ (State.event_still ⟨hheld, hq⟩ (State.takeLockEnd_none (s := s.advance dt) hc))

/-! ## The end of a commit cycle -/

/-- Every supervision timer runs its timeout from now (R182, R198). -/
theorem State.restartTimers_link (s : State) (p : Party) :
    s.restartTimers.link p = { s.link p with due := some (s.time + s.timeout p) } := by
  cases p <;> rfl

/-- Apart from the links a restart of the supervision timers changes nothing. -/
theorem State.restartTimers_eq (s : State) : ∃ links, s.restartTimers = { s with links := links } := by
  have hfold (ps : List Party) : ∀ u : State, ∃ links,
      ps.foldl State.restartTimer u = { u with links := links } := by
    induction ps with
    | nil => exact fun u => ⟨u.links, rfl⟩
    | cons p ps ih => exact fun u => ih (u.restartTimer p)
  exact hfold _ s

theorem clamp_within {x b : Int} (h : mag x ≤ b) : clamp x (-b) b = x := by
  unfold mag at h
  rw [clamp, if_neg (by omega), if_neg (by omega)]

/-- The committed set is in force, the supervision timers run its timeouts, and the Reckoner has taken its
table (R4, R39, R198). -/
def State.committed (s : State) (o : OperatingSet) : State :=
  { ((s.modStore fun st => st.commit o).modReck fun r => r.replaceTable o.settings.cMax).restartTimers with
    tableInvalid := false }

/-- The restart of the Filter Bank and the arbitration that end a commit cycle (R53, R61). -/
def State.rebanked (s : State) (old : List Slot) : State :=
  ((s.restartSlots.takeOutputs old).wantArbitration).settle

theorem State.completeCommit_eq (s : State) (o : OperatingSet) :
    s.completeCommit o = (s.committed o).rebanked s.slots := rfl

theorem State.rebanked_settles (s : State) (old : List Slot) : Settles s (s.rebanked old) :=
  ((s.restartSlots_settles.trans (State.takeOutputs_settles _ _)).trans
    (State.modRun_settles _ _)).trans (State.settle_settles _)

/-- The restart of the bank leaves the reckoning of a part that is REFERENCED. -/
theorem State.rebanked_tied {s : State} (h : s.reck.referenced = true) (old : List Slot) :
    Tied s (s.rebanked old) := by
  have hslots : Tied s s.restartSlots := ⟨rfl, rfl, rfl, rfl, rfl, fun _ h => h⟩
  have houtputs : Tied s.restartSlots (s.restartSlots.takeOutputs old) :=
    (State.takeOutputs_steady _ _).tied (State.takeOutputs_settles _ _).outer
  have hwant (u : State) : Tied u u.wantArbitration := ⟨rfl, rfl, rfl, rfl, rfl, fun _ h => h⟩
  have hall := (hslots.trans houtputs).trans (hwant _)
  exact hall.trans (State.settle_tied (hall.referenced.trans h))

/-- What a commit leaves outside the reckoning: the store, the links with their new timeouts, the records. -/
theorem State.committed_records (s : State) (o : OperatingSet) :
    (s.committed o).store = s.store.commit o ∧ (s.committed o).tableInvalid = false
    ∧ (s.committed o).recs = s.recs ∧ (s.committed o).inputs = s.inputs
    ∧ (s.committed o).reck = s.reck.replaceTable o.settings.cMax := by
  obtain ⟨links, htimers⟩ := State.restartTimers_eq
    ((s.modStore fun st => st.commit o).modReck fun r => r.replaceTable o.settings.cMax)
  unfold State.committed
  rw [htimers]
  exact ⟨rfl, rfl, rfl, rfl, rfl⟩

theorem State.committed_link (s : State) (o : OperatingSet) (p : Party) : (s.committed o).link p
    = { s.link p with due := some (s.time + ms (o.settings.timeoutMs p).toNat) } :=
  State.restartTimers_link ((s.modStore fun st => st.commit o).modReck fun r =>
    r.replaceTable o.settings.cMax) p

/-- The replacement of the table bounds the corrections, and leaves those within the new C_max (R39). -/
theorem Reckoner.replaceTable_c (r : Reckoner) (cMax : Int) (k : Car) :
    (0 ≤ cMax → mag ((r.replaceTable cMax).c.get k) ≤ cMax)
    ∧ (mag (r.c.get k) ≤ cMax → (r.replaceTable cMax).c.get k = r.c.get k) := by
  have hget : (r.replaceTable cMax).c.get k = clamp (r.c.get k) (-cMax) cMax := by cases k <;> rfl
  rw [hget]
  exact ⟨mag_clamp_le, clamp_within⟩

/-- Settles O54: the restart of the bank and the settling that follow leave what the commit has set. -/
theorem commitCompletes : Obligations.CommitCompletes := by
  intro dt o s hheld hc
  have hsends := State.event_sends hheld dt State.takeCommitEnd
  have hend : (s.advance dt).takeCommitEnd = ((s.advance dt).committed o).rebanked s.slots := by
    have hc' : (s.advance dt).store.cycle = .commit o := hc
    rw [State.takeCommitEnd, hc']
    exact State.completeCommit_eq _ o
  rw [hend] at hsends
  obtain ⟨hstore, htable, hrecs, hinputs, hreck⟩ := (s.advance dt).committed_records o
  have hlink := (s.advance dt).committed_link o
  generalize (s.advance dt).committed o = u at *
  have hsettles := u.rebanked_settles s.slots
  have htied := u.rebanked_tied (old := s.slots)
  have houter := hsettles.outer
  generalize u.rebanked s.slots = w at *
  have hcmax : u.settings.cMax = o.settings.cMax := by rw [State.settings, hstore]; rfl
  refine ⟨_, rfl, hsends.store.trans (houter.store.trans hstore),
    hsends.tableInvalid.trans (houter.tableInvalid.trans htable), fun p => ?_, fun hpos k => ?_,
    fun href => ?_, hsends.recs.trans (houter.recs.trans hrecs),
    hsends.inputs.trans (houter.inputs.trans hinputs), ?_⟩
  · obtain ⟨hup, hdue, -⟩ := hsends.links p
    have hlinkW : w.link p = { s.link p with due := some (s.time + dt + ms (o.settings.timeoutMs p).toNat) } := by
      rw [State.link, houter.links]
      exact hlink p
    rw [hup, hdue, hlinkW]
    exact ⟨rfl, congrArg (fun n => some (s.time + dt + n)) (Nat.mul_comm _ _)⟩
  · have hbounded : u.Bounded := fun h k => by
      rw [hcmax] at h ⊢
      rw [hreck]
      exact (s.reck.replaceTable_c o.settings.cMax k).1 h
    have hw := hsettles.bounded hbounded
    rw [State.Bounded, State.settings, houter.store, ← State.settings, hcmax] at hw
    rw [hsends.reck]
    exact hw hpos k
  · obtain ⟨-, hcorr, -, hzones, hprev, -⟩ := htied (by rw [hreck]; exact href)
    rw [hsends.reck, hprev, hzones, hcorr, hreck]
    exact ⟨rfl, rfl, fun k => (s.reck.replaceTable_c o.settings.cMax k).2⟩
  · rw [hsends.reck, houter.sample, hreck]
    rfl

end Sys2Proof.Machine
end
